-- ==== Sys2Proof/Word.lean ====
section
/-! DEFINITION. The plainest types of the block (spec/00_scope.md section 5.1): a byte and a `u16`.
Nothing in the block is wider than sixteen bits, and nothing is signed. -/

namespace Sys2Proof

/-- "A byte is an unsigned integer in 0..255." Bytes enter the checksum bit by bit, so they are bit vectors. -/
abbrev Byte := BitVec 8

/-- "`u16` is an unsigned integer in 0..65535": the accumulator, the length field, the raw sensor value. -/
abbrev U16 := BitVec 16

/-- The block's one memory, a byte-addressed queue (R40): index 0 is its front. An index is a natural number,
"not a fixed-width address; nothing wraps", and the size is unbounded (R43), so the queue is the list of its bytes:
equal memories are equal lists (log 13). -/
abbrev Memory := List Byte

end Sys2Proof
end

