-- ==== Sys2Proof/Config.lean ====
section
/-! DEFINITION. The implementation parameters of the block: the table of spec/00_scope.md R7. A row with a value is a
constant here; a row marked OPEN is a field of `Params` (an argument of the model, log 5) or, where the spec gives no
default, an opaque constant. -/

namespace Sys2Proof.Config

/-- `CRC_POLY`: reflected generator polynomial of the checksum (R7, R90). -/
def crcPoly : U16 := 0xA001#16

/-- `CRC_SEED`: initial accumulator value (R7, R90). -/
def crcSeed : U16 := 0xFFFF#16

/-- `CRC_XOROUT`: value XORed into the final accumulator: none (R7, R92). -/
def crcXorOut : U16 := 0x0000#16

/-- `RX_MARKER_LEN`: length of `RX_MARKER` in bytes (R7, R133). -/
def rxMarkerLen : Nat := 2

/-- First byte of `RX_MARKER` (R7, R133). -/
def markerHi : Byte := 0xEF#8

/-- Second byte of `RX_MARKER` (R7, R133). -/
def markerLo : Byte := 0x01#8

/-- `RX_HDR_LEN`: marker plus length field (R7, R136). -/
def rxHdrLen : Nat := 4

/-- `RX_OVERHEAD`: marker, length field and checksum (R7, R142). -/
def rxOverhead : Nat := 6

/-- `RX_LEN_MIN` (R7, R138). -/
def rxLenMin : Nat := 6

/-- `RX_LEN_MAX` (R7, R138). -/
def rxLenMax : Nat := 1024

/-- `RX_PAYLOAD_MAX = RX_LEN_MAX - RX_OVERHEAD` (R7). -/
def rxPayloadMax : Nat := rxLenMax - rxOverhead

/-- `LEN_FIELD_MAX`: greatest value a 2-byte length field holds (R7, R119). -/
def lenFieldMax : Nat := 0xFFFF

/-- `RXBUF_CAP`: unbounded (R7, R43), so no rule tests it (log 13). -/
def rxbufCap : Option Nat := none

/-- `READ_BACKOFF_MS` (R7, R251): for the record; "timing only, read by no rule" (log 17). -/
def readBackoffMs : Nat := 50

/-- `SENSOR_CMD`: command code of the sensor report (R7, R191). -/
def sensorCmd : Byte := 0x10#8

/-- `SENSOR_VREF`: "3.3 (exactly 33/10)" (R7, R193). -/
def sensorVref : Rat := 33 / 10

/-- `SENSOR_FULLSCALE`: "4095.0 (exactly 4095)" (R7, R193). -/
def sensorFullScale : Rat := 4095

/-- How far the OPEN parameter `SCRATCH_SIZE` exceeds its least value 1 (R7, D20). DESIGN CHOICE (log 6): the spec
gives no default, so this constant has no body and no proof can see it. -/
opaque scratchExtra : Nat

/-- `SCRATCH_SIZE` of the installed block: some integer at least 1 (R7, D20; log 6). -/
def scratchSize : Nat := scratchExtra + 1

/-- `READ_TIMEOUT` of the installed block (R7, U12): "OPEN, not given", so it has no body (DESIGN CHOICE, log 17). -/
opaque readTimeout : Nat

/-- `WRITE_TIMEOUT` of the installed block (R7, U12): "OPEN, not given", so it has no body (DESIGN CHOICE, log 17). -/
opaque writeTimeout : Nat

/-- The reading of a raw sensor value under a number system other than exact rationals (`READING_NUMERICS`, R7, R193,
D26). A FREE VALUE (DESIGN CHOICE, log 7): the spec fixes neither format nor rounding, so this has no body. -/
opaque implementationReading : U16 → Rat

/-- `READING_NUMERICS` (R7, R193): exact rationals (the default), or whatever the implementation computes in. -/
inductive Numerics where
  | exact
  | implementation
  deriving DecidableEq, Repr

end Sys2Proof.Config

namespace Sys2Proof

/-- The OPEN parameters (R7, "an argument of the model"). A limit is `none` when unbounded. -/
structure Params where
  /-- `SCRATCH_SIZE`: upper bound of one received chunk (R172). -/
  scratchSize : Nat
  /-- `HDR_MAX` (R119). -/
  hdrMax : Option Nat
  /-- `TRL_MAX` (R119). -/
  trlMax : Option Nat
  /-- `PAYLOAD_MAX` (R119). -/
  payloadMax : Option Nat
  /-- `READ_TIMEOUT`, in a unit the spec does not give: "timing only, read by no rule" (R7, R251, U12). -/
  readTimeout : Nat
  /-- `WRITE_TIMEOUT`, likewise (R7, R251, U12). -/
  writeTimeout : Nat
  /-- `LOG_INVALID_LENGTH` (R139). -/
  logInvalidLength : Bool
  /-- `READING_NUMERICS` (R193). -/
  numerics : Config.Numerics
  deriving DecidableEq, Repr

/-- The parameters at the defaults of R7; `SCRATCH_SIZE` and the two timeouts have none and stay opaque (log 5, log 6,
log 17). -/
def Params.default : Params :=
  { scratchSize := Config.scratchSize, hdrMax := none, trlMax := none, payloadMax := none,
    readTimeout := Config.readTimeout, writeTimeout := Config.writeTimeout, logInvalidLength := false, numerics := .exact }

end Sys2Proof
end

