-- ==== Sys2Proof/Machine/Bytes.lean ====
section
/-! DEFINITION. Byte order (spec/20_memory.md R44 to R46, spec/00_scope.md 5.1): the conversions between a `u16` and two
bytes, each direction and each order on its own ("a model must not share one conversion between them", R45). -/

namespace Sys2Proof.Machine

/-- `be16(b0, b1) = b0 * 256 + b1`: first byte most significant. -/
def be16 (b0 b1 : Byte) : U16 := b0 ++ b1

/-- `le16(b0, b1) = b0 + b1 * 256`: first byte least significant. -/
def le16 (b0 b1 : Byte) : U16 := b1 ++ b0

/-- `v[7:0]`. -/
def lowByte (v : U16) : Byte := v.extractLsb' 0 8

/-- `v[15:8]`. -/
def highByte (v : U16) : Byte := v.extractLsb' 8 8

/-- `BE16(v) = [v[15:8], v[7:0]]`. -/
def be16Bytes (v : U16) : List Byte := [highByte v, lowByte v]

/-- `LE16(v) = [v[7:0], v[15:8]]`. -/
def le16Bytes (v : U16) : List Byte := [lowByte v, highByte v]

/-- `RX_MARKER = [0xEF, 0x01]` (R7, R133). -/
def rxMarker : List Byte := [Config.markerHi, Config.markerLo]

/-- The bytes of an `RXF` prefix and what follows it (R62): marker, big-endian length, rest. -/
def rxfBytes (totalLen : U16) (rest : List Byte) : List Byte :=
  rxMarker ++ be16Bytes totalLen ++ rest

/-- The bytes of a `SENS` payload (R64): command byte, one unread byte, big-endian raw value, unread rest. -/
def sensBytes (unread : Byte) (raw : U16) (rest : List Byte) : List Byte :=
  Config.sensorCmd :: unread :: be16Bytes raw ++ rest

end Sys2Proof.Machine
end

