-- ==== Sys2Proof/Syntax.lean ====
section
/-! DEFINITION. The syntax of the block: the operand types (spec/10_state.md R18, R20), one constructor of `Instr` for
each row of spec/opcode_table.json, and `Line`, the coded form in which a step of an agent reaches the block. -/

namespace Sys2Proof

/-- `FrameShape` (R18): the configuration of one outbound frame. "An absent trailer and an empty trailer are the same
value", so the trailer is a byte sequence that may be empty. -/
structure FrameShape where
  header      : List Byte
  useLength   : Bool
  useChecksum : Bool
  trailer     : List Byte
  deriving DecidableEq, Repr

/-- The `config` operand of `OPEN` (R20, R165): "an opaque value handed to `OPEN`; the block does not look inside it".
DESIGN CHOICE (log 18): a token that tells two configurations apart, and nothing more. -/
structure LinkConfig where
  token : Nat
  deriving DecidableEq, Repr

/-- One constructor per row of spec/opcode_table.json. -/
inductive Instr where
  /-- `CRC.INIT` (0x10, R94). -/
  | crcInit
  /-- `CRC.UPD b` (0x11, R95). -/
  | crcUpd (b : Byte)
  /-- `CRC.RD` (0x12, R96). -/
  | crcRd
  /-- `CRC.RDLE` (0x13, R97). -/
  | crcRdle
  /-- `CRC.SUM bytes, offset, length` (0x14, R98). -/
  | crcSum (bytes : List Byte) (offset length : Nat)
  /-- `CRC.SUMLE bytes, offset, length` (0x15, R99). -/
  | crcSumle (bytes : List Byte) (offset length : Nat)
  /-- `PACK shape, payload` (0x20, R110). -/
  | pack (shape : FrameShape) (payload : List Byte)
  /-- `FEED chunk` (0x30, R130). -/
  | feed (chunk : List Byte)
  /-- `OPEN config` (0x40, R162). -/
  | openLink (config : LinkConfig)
  /-- `WRITE bytes` (0x41, R166). -/
  | write (bytes : List Byte)
  /-- `CLOSE` (0x42, R170). -/
  | close
  /-- `DISPATCH payload` (0x50, R190). -/
  | dispatch (payload : List Byte)
  /-- Agent step `RX.DATA chunk` (label 0x80, R172). -/
  | rxData (chunk : List Byte)
  /-- Agent step `RX.IDLE` (label 0x81, R173). -/
  | rxIdle
  /-- Agent step `RX.ERR` (label 0x82, R174). -/
  | rxErr
  /-- Wire row `RXF.PREFIX` (R62): the marker, the length field `L`, and what follows the prefix. -/
  | rxfPrefix (totalLen : U16) (rest : List Byte)
  /-- Wire row `CMDF.0` (R63, R82). -/
  | cmdf0
  /-- Wire row `CMDF.1` (R63, R82). -/
  | cmdf1
  /-- Wire row `CMDF.2` (R63, R82). -/
  | cmdf2
  /-- Wire row `CMDF.3` (R63, R82). -/
  | cmdf3
  /-- Wire row `SENS.PREFIX` (R64): the unread byte 1, the raw value, and the unread bytes from offset 4 on. -/
  | sensPrefix (unread : Byte) (raw : U16) (rest : List Byte)
  deriving DecidableEq, Repr

/-- The operands that travel beside a selector "as typed values, not as bits" (R66). One field per operand name of the
opcode table; an operation reads the fields its row names and no others. DESIGN CHOICE (log 8). -/
structure Operands where
  b       : Byte := 0#8
  bytes   : List Byte := []
  offset  : Nat := 0
  length  : Nat := 0
  shape   : FrameShape := { header := [], useLength := false, useChecksum := false, trailer := [] }
  payload : List Byte := []
  chunk   : List Byte := []
  config  : LinkConfig := { token := 0 }
  deriving DecidableEq, Repr

/-- The three wire formats that have rows in the opcode table (R73). -/
inductive WireFormat where
  /-- `RXF`, the fixed inbound frame (R62). -/
  | rxf
  /-- `CMDF`, the domain command frames of the send direction (R63). -/
  | cmdf
  /-- `SENS`, the sensor report payload (R64). -/
  | sens
  deriving DecidableEq, Repr

/-- One coded step as it reaches the block: a request of `HOST` (format `OP`, R66), a step of `RXLOOP` (format `AGENT`,
R72), or a wire pattern (format `WIRE`, R73; log 9). -/
inductive Line where
  | request (selector : Byte) (operands : Operands)
  | agentStep (label : Byte) (chunk : List Byte)
  | wire (format : WireFormat) (bytes : List Byte)
  deriving DecidableEq, Repr

end Sys2Proof
end

