-- ==== Sys2Proof/WellFormed.lean ====
section
/-! DEFINITION. Which terms of `Instr` stand for a step the spec has. The operand types leave one check: the chunk of an
`RX.DATA` is not empty (R72, R172: `1 ≤ len(chunk)`). Its upper bound `SCRATCH_SIZE` is a parameter, so it is tested
when the step is taken. A range or a frame too long is not ill-formed: such a request runs and is refused (R207). -/

namespace Sys2Proof

/-- The well-formed instructions. -/
def WellFormed : Instr → Bool
  | .rxData chunk => !chunk.isEmpty
  | .crcInit | .crcUpd _ | .crcRd | .crcRdle | .crcSum _ _ _ | .crcSumle _ _ _ => true
  | .pack _ _ | .feed _ | .openLink _ | .write _ | .close | .dispatch _ => true
  | .rxIdle | .rxErr => true
  | .rxfPrefix _ _ | .cmdf0 | .cmdf1 | .cmdf2 | .cmdf3 | .sensPrefix _ _ _ => true

end Sys2Proof
end

