-- ==== Sys2Proof/Decode.lean ====
section
/-! DEFINITION. The decoder and, after it, the encoder, both written from spec/30_encoding.md R71 to R74 (selectors,
labels) and R62 to R64 (wire formats). The decoder is total and rejects by name. -/

namespace Sys2Proof

open Sys2Proof.Machine

/-- Why a coded step stands for no instruction. -/
inductive Reject where
  /-- A request whose selector is not one of the twelve of R71 (R74, R206). -/
  | illegalOp (selector : Byte)
  /-- A receive-loop label that is not one of the three of R72. -/
  | noSuchAgentStep (label : Byte)
  /-- An `RX.DATA` label with an empty chunk (R72: `1 ≤ len`). -/
  | emptyChunk
  /-- Bytes that spell no wire row of the given format (R73). -/
  | noSuchWirePattern (format : WireFormat)
  deriving DecidableEq, Repr

/-- The twelve selectors of R71. "Every 8-bit value not in the table of rule R71 is illegal as a request, including
`0x80` to `0x82`" (R74). -/
def decodeRequest (selector : Byte) (o : Operands) : Except Reject Instr :=
  match selector.toNat with
  | 0x10 => .ok .crcInit
  | 0x11 => .ok (.crcUpd o.b)
  | 0x12 => .ok .crcRd
  | 0x13 => .ok .crcRdle
  | 0x14 => .ok (.crcSum o.bytes o.offset o.length)
  | 0x15 => .ok (.crcSumle o.bytes o.offset o.length)
  | 0x20 => .ok (.pack o.shape o.payload)
  | 0x30 => .ok (.feed o.chunk)
  | 0x40 => .ok (.openLink o.config)
  | 0x41 => .ok (.write o.bytes)
  | 0x42 => .ok .close
  | 0x50 => .ok (.dispatch o.payload)
  | _ => .error (.illegalOp selector)

/-- The three labels of R72; only `RX.DATA` has a draw. -/
def decodeAgentStep (label : Byte) (chunk : List Byte) : Except Reject Instr :=
  match label.toNat with
  | 0x80 => if chunk.isEmpty then .error .emptyChunk else .ok (.rxData chunk)
  | 0x81 => .ok .rxIdle
  | 0x82 => .ok .rxErr
  | _ => .error (.noSuchAgentStep label)

/-- The ten bytes of `CMDF.<n>`, as the opcode table's `match` lists them in wire order (R63, R73). -/
def cmdf0Bytes : List Byte := [0xEF#8, 0x01#8, 0x00#8, 0x0A#8, 0x00#8, 0x00#8, 0x00#8, 0x00#8, 0x00#8, 0x24#8]
@[inherit_doc cmdf0Bytes]
def cmdf1Bytes : List Byte := [0xEF#8, 0x01#8, 0x00#8, 0x0A#8, 0x00#8, 0x00#8, 0x00#8, 0x01#8, 0xC1#8, 0xE4#8]
@[inherit_doc cmdf0Bytes]
def cmdf2Bytes : List Byte := [0xEF#8, 0x01#8, 0x00#8, 0x0A#8, 0x00#8, 0x00#8, 0x00#8, 0x02#8, 0x81#8, 0xE5#8]
@[inherit_doc cmdf0Bytes]
def cmdf3Bytes : List Byte := [0xEF#8, 0x01#8, 0x00#8, 0x0A#8, 0x00#8, 0x00#8, 0x00#8, 0x03#8, 0x40#8, 0x25#8]

/-- A wire pattern of one format (R62, R63, R64). The direction of travel tells a command frame going out from an inbound
frame with the same bytes, so the format is given (log 9). -/
def decodeWire (format : WireFormat) (bytes : List Byte) : Except Reject Instr :=
  match format with
  | .rxf =>
    match bytes with
    | m0 :: m1 :: lenHi :: lenLo :: rest =>
      if m0 = Config.markerHi ∧ m1 = Config.markerLo then .ok (.rxfPrefix (be16 lenHi lenLo) rest)
      else .error (.noSuchWirePattern .rxf)
    | _ => .error (.noSuchWirePattern .rxf)
  | .cmdf =>
    if bytes = cmdf0Bytes then .ok .cmdf0
    else if bytes = cmdf1Bytes then .ok .cmdf1
    else if bytes = cmdf2Bytes then .ok .cmdf2
    else if bytes = cmdf3Bytes then .ok .cmdf3
    else .error (.noSuchWirePattern .cmdf)
  | .sens =>
    match bytes with
    | cmd :: unread :: rawHi :: rawLo :: rest =>
      if cmd = Config.sensorCmd then .ok (.sensPrefix unread (be16 rawHi rawLo) rest)
      else .error (.noSuchWirePattern .sens)
    | _ => .error (.noSuchWirePattern .sens)

/-- The decoder: a coded step to the instruction it stands for, or the reason it stands for none. -/
def decode : Line → Except Reject Instr
  | .request selector operands => decodeRequest selector operands
  | .agentStep label chunk => decodeAgentStep label chunk
  | .wire format bytes => decodeWire format bytes

/-! ### The encoder -/

/-- The coded form of an instruction: the code or the bytes its row gives, and the operands its row names; the others
stay at their defaults (R66, R71, R72, R73). -/
def encode : Instr → Line
  | .crcInit => .request 0x10#8 {}
  | .crcUpd b => .request 0x11#8 { b := b }
  | .crcRd => .request 0x12#8 {}
  | .crcRdle => .request 0x13#8 {}
  | .crcSum bytes offset length => .request 0x14#8 { bytes := bytes, offset := offset, length := length }
  | .crcSumle bytes offset length => .request 0x15#8 { bytes := bytes, offset := offset, length := length }
  | .pack shape payload => .request 0x20#8 { shape := shape, payload := payload }
  | .feed chunk => .request 0x30#8 { chunk := chunk }
  | .openLink config => .request 0x40#8 { config := config }
  | .write bytes => .request 0x41#8 { bytes := bytes }
  | .close => .request 0x42#8 {}
  | .dispatch payload => .request 0x50#8 { payload := payload }
  | .rxData chunk => .agentStep 0x80#8 chunk
  | .rxIdle => .agentStep 0x81#8 []
  | .rxErr => .agentStep 0x82#8 []
  | .rxfPrefix totalLen rest => .wire .rxf (rxfBytes totalLen rest)
  | .cmdf0 => .wire .cmdf cmdf0Bytes
  | .cmdf1 => .wire .cmdf cmdf1Bytes
  | .cmdf2 => .wire .cmdf cmdf2Bytes
  | .cmdf3 => .wire .cmdf cmdf3Bytes
  | .sensPrefix unread raw rest => .wire .sens (sensBytes unread raw rest)

/-! ### Words of the opcode table -/

/-- Whether an 8-bit code is one of the receive-loop labels of R72. -/
def isAgentLabel (code : Byte) : Bool := code = 0x80#8 || code = 0x81#8 || code = 0x82#8

/-- The `n` low bytes of `w`, most significant first: R73, "`match`, `mask` and the pattern string list the bytes in wire
order, the first byte leftmost (most significant in `match`)" (log 22). -/
def wireBytes : Nat → Nat → List Byte
  | 0, _ => []
  | n + 1, w => BitVec.ofNat 8 (w >>> (8 * n)) :: wireBytes n w

/-- The wire format a pattern of the opcode table belongs to: the ten-byte rows are `CMDF`, and the command byte tells
`SENS` from `RXF`. -/
def tableFormat (bytes : List Byte) : WireFormat :=
  if bytes.length = 10 then .cmdf
  else if bytes.head? = some Config.sensorCmd then .sens
  else .rxf

/-- The coded step of a table word: an 8-bit word is a selector or a label, a longer one a wire pattern. Every operand is
zero; the least chunk of an `RX.DATA` is one byte (R72), so its zero operand is `[0x00]` (log 22). -/
def tableLine (nbits w : Nat) : Line :=
  if nbits = 8 then
    if isAgentLabel (BitVec.ofNat 8 w) then .agentStep (BitVec.ofNat 8 w) [0x00#8]
    else .request (BitVec.ofNat 8 w) {}
  else .wire (tableFormat (wireBytes (nbits / 8) w)) (wireBytes (nbits / 8) w)

/-- The instruction the decoder reads from a word numbered as spec/opcode_table.json numbers it. -/
def decodeTableWord (nbits w : Nat) : Option Instr :=
  match decode (tableLine nbits w) with
  | .ok i => some i
  | .error _ => none

end Sys2Proof
end

