-- ==== Sys2Proof/Machine/State.lean ====
section
/-! DEFINITION. The state of the block: the tuple of spec/10_state.md R10 and the model's own fields (the results, the
steps the agents issue, the environment's draw, the parameters), each said to be so; what can stop a step; reset. -/

namespace Sys2Proof.Machine

/-- `LINK` (R13): whether the Transport Channel holds an open physical link. While it does, exactly one receive loop
runs. -/
inductive Link where
  | closed
  | opened
  deriving DecidableEq, Repr

/-- What `FEED` emits (R19). `ChecksumMismatch` carries no data. -/
inductive Event where
  | validatedPayload (payload : List Byte)
  | checksumMismatch
  deriving DecidableEq, Repr

/-- A record of `DIAG_OUT` (R20): a failed read, or a rejected length. -/
inductive DiagRecord where
  | transientReadError
  | invalidLength (totalLen : U16)
  deriving DecidableEq, Repr

/-- The complete list of error kinds (R200), each with the value it records. -/
inductive ErrorKind where
  | linkOpenError
  | notConnectedError
  | transientReadError
  | invalidLength (totalLen : U16)
  | checksumMismatch
  | linkWriteError
  | illegalOp (selector : Byte)
  | operandRefused
  deriving DecidableEq, Repr

/-- What the dispatcher makes of a payload (R20, R193). -/
inductive DomainEvent where
  | sensorReading (raw : U16) (reading : Rat)
  deriving DecidableEq, Repr

/-- What an operation reports (R16, R71): `Ok`, a value, or an error kind. -/
inductive Result where
  | ok
  | word (value : U16)
  | bytes (value : List Byte)
  | events (value : List Event)
  | domain (value : Option DomainEvent)
  | error (kind : ErrorKind)
  deriving DecidableEq, Repr

/-- The agents that issue operations and so receive results (R24). -/
inductive Agent where
  | host
  | rxloop
  deriving DecidableEq, Repr

/-- A result and the agent it returned to (R214: "An error result returns to the agent that issued the operation"). -/
structure Response where
  issuer : Agent
  result : Result
  deriving DecidableEq, Repr

/-- What the environment chooses for one operation (R23, "draws"): whether the device obliges (`OPEN`, `WRITE`), how many
bytes a failing `WRITE` put out, and how many issued steps fall between the two operations of a `SEND` (R81).
A FREE VALUE: nothing constrains it (log 4). -/
structure EnvDraw where
  ok    : Bool
  taken : Nat
  gap   : Nat
  deriving DecidableEq, Repr

/-- One step an agent issues, with the draw that belongs to it. -/
structure Issue where
  line : Line
  draw : EnvDraw
  deriving DecidableEq, Repr

/-- The state. The first seven fields are the whole state of R10; the last four are the model's own. -/
structure State where
  /-- `CRC_ACC` (R12). -/
  crcAcc   : U16
  /-- `RXBUF` (R26, R40). -/
  rxbuf    : Memory
  /-- `LINK` (R13). -/
  link     : Link
  /-- `EVT_OUT` (R14). -/
  evtOut   : List Event
  /-- `TX_STREAM` (R14). -/
  txStream : List Byte
  /-- `RX_STREAM` (R14). -/
  rxStream : List Byte
  /-- `DIAG_OUT` (R14). -/
  diagOut  : List DiagRecord
  /-- The results returned so far, oldest first: a trace no rule reads. DESIGN CHOICE (log 3). -/
  resOut   : List Response
  /-- What the agents issue next, in the order of the interleaving. DESIGN CHOICE (log 1). -/
  pending  : List Issue
  /-- The environment's draw for the operation being carried out. DESIGN CHOICE (log 4). -/
  draw     : EnvDraw
  /-- The OPEN parameters (R7); no step writes them. DESIGN CHOICE (log 5). -/
  params   : Params
  deriving DecidableEq, Repr

/-- Why the machine stops: a step that the spec says does not exist. No operation of the block ever faults (R149, R214:
errors are results). -/
inductive Fault where
  /-- Raised by an `RXLOOP` step while `LINK` is closed: "enabled only while `LINK = Open`" (R172 to R175). Safe: the
  hardware has no such step (log 11). -/
  | rxStepNotEnabled (label : Byte)
  /-- Raised by `RX.DATA` with a chunk outside `1..SCRATCH_SIZE` (R172). Safe: the hardware has no such step (log 11). -/
  | rxChunkOutOfRange
  /-- Raised by a step of `RXLOOP` whose label is not in R72. Safe: the hardware has no such step (log 12). -/
  | noSuchAgentStep (label : Byte)
  /-- Raised when bytes are issued as a wire row and spell none (R73). Safe: such an issue stands for no rule (log 12). -/
  | noSuchWirePattern (format : WireFormat)
  deriving DecidableEq, Repr

/-- Why an instruction has no meaning. -/
inductive Refusal where
  /-- Raised by an arm of `exec` whose instruction has no meaning yet. Safe: nothing is claimed of it. -/
  | notModelled (mnemonic : String)
  deriving DecidableEq, Repr

/-- The outcome type of a step of this machine. -/
abbrev Outcome := Host.Outcome State Fault Refusal

/-- The machine right after reset (R25, R230): every element of R10 at its reset value. The model's own fields start
empty, the draw at a value no statement rests on (DESIGN CHOICE, log 4), the parameters at their defaults (log 5). -/
def State.reset : State where
  crcAcc := Config.crcSeed
  rxbuf := []
  link := .closed
  evtOut := []
  txStream := []
  rxStream := []
  diagOut := []
  resOut := []
  pending := []
  draw := { ok := true, taken := 0, gap := 0 }
  params := Params.default

end Sys2Proof.Machine
end

