-- ==== Sys2Proof/Machine/Flags.lean ====
section
/-! DEFINITION. "Flags and condition codes. The block has none. An operation reports its outcome as its result value"
(spec/10_state.md R16). What stands here in their place is the coding of outcomes: the codes of spec/60_exceptions.md
R200, and which kinds can be a result at all. -/

namespace Sys2Proof.Machine

/-- The code of an error kind (R200). -/
def ErrorKind.code : ErrorKind → Byte
  | .linkOpenError => 0x01#8
  | .notConnectedError => 0x02#8
  | .transientReadError => 0x03#8
  | .invalidLength _ => 0x04#8
  | .checksumMismatch => 0x05#8
  | .linkWriteError => 0x06#8
  | .illegalOp _ => 0x07#8
  | .operandRefused => 0x08#8

/-- The code of a result: `Ok` is `0x00` (R200), and so is an operation that ended with a value, since it did not
`raise`. -/
def Result.code : Result → Byte
  | .error kind => kind.code
  | .ok | .word _ | .bytes _ | .events _ | .domain _ => 0x00#8

/-- Whether `HOST` can see the kind as a result (the column "seen by" of R200): the other three never are one (R203 to
R205). -/
def ErrorKind.isResult : ErrorKind → Bool
  | .linkOpenError | .notConnectedError | .linkWriteError | .illegalOp _ | .operandRefused => true
  | .transientReadError | .invalidLength _ | .checksumMismatch => false

/-- The error kind an event reports, if it reports one (R205). -/
def Event.kind : Event → Option ErrorKind
  | .validatedPayload _ => none
  | .checksumMismatch => some .checksumMismatch

/-- The error kind a diagnostic record reports, with the value it records (R203, R204). -/
def DiagRecord.kind : DiagRecord → ErrorKind
  | .transientReadError => .transientReadError
  | .invalidLength totalLen => .invalidLength totalLen

end Sys2Proof.Machine
end

