-- ==== Sys2Proof/Machine/Operands.lean ====
section
/-! DEFINITION. How operands are read: ranges of a byte sequence (R93, R98), capacity limits (R119), chunk bounds (R172),
and the lengths of an outbound frame (R60, R67). -/

namespace Sys2Proof.Machine

/-- `s[a .. a + n)` of the notation (spec/00_scope.md 5.2). -/
def slice (s : List Byte) (a n : Nat) : List Byte := (s.drop a).take n

/-- Whether the range `[offset, offset + length)` lies in the sequence (R93). -/
def rangeInside (bytes : List Byte) (offset length : Nat) : Bool := decide (offset + length ≤ bytes.length)

/-- Whether an operand is longer than its capacity parameter; an unbounded one is never exceeded (R119, D9). -/
def exceeds (limit : Option Nat) (n : Nat) : Bool :=
  match limit with
  | none => false
  | some most => decide (most < n)

/-- `len(s) ≤ n`, by recursion on the sequence, so that it evaluates for a bound with no known value (log 6). -/
def lengthAtMost : List Byte → Nat → Bool
  | [], _ => true
  | _ :: _, 0 => false
  | _ :: t, n + 1 => lengthAtMost t n

/-- The chunks a receive loop may draw: `1 ≤ len(chunk) ≤ SCRATCH_SIZE` (R172). -/
def chunkInRange (scratchSize : Nat) (chunk : List Byte) : Bool := !chunk.isEmpty && lengthAtMost chunk scratchSize

/-- `L` of R60: the length of the length field, 0 or 2. -/
def FrameLength.lengthField (shape : FrameShape) : Nat := if shape.useLength then 2 else 0

/-- `C` of R60: the length of the checksum field, 0 or 2. -/
def FrameLength.checksumField (shape : FrameShape) : Nat := if shape.useChecksum then 2 else 0

/-- `total = H + 2 + P + C + T` of R67, over the natural numbers; defined for a shape with a length field. -/
def FrameLength.total (shape : FrameShape) (payload : List Byte) : Nat :=
  shape.header.length + 2 + payload.length + FrameLength.checksumField shape + shape.trailer.length

/-- `SHAPE_FIXED` (R84): the shape whose frames the block's own receiver accepts. -/
def shapeFixed : FrameShape :=
  { header := rxMarker, useLength := true, useChecksum := true, trailer := [] }

end Sys2Proof.Machine
end

