-- ==== Sys2Proof/Machine/Ops.lean ====
section
/-! DEFINITION. The named operations over the receive buffer, the registers and the traces, and the one way in which an
operation ends with an error. Every meaning is written over these. -/

namespace Sys2Proof.Machine

/-! ### The receive buffer: the three primitive actions of R42, and its reads -/

/-- Append at the back: `RXBUF <- RXBUF ++ chunk` (R42, R132). -/
abbrev bufAppend (m : Memory) (chunk : List Byte) : Memory := m ++ chunk

/-- Remove `n` bytes from the front: `RXBUF <- drop(n, RXBUF)` (R42). -/
abbrev bufDrop (n : Nat) (m : Memory) : Memory := m.drop n

/-- Discard everything: `RXBUF <- []` (R42, R134). -/
abbrev bufDiscard : Memory := []

/-- `MemRead(0, n)`: the `n` bytes at the front (spec/00_scope.md 5.3). -/
abbrev bufFront (n : Nat) (m : Memory) : List Byte := m.take n

/-- The byte at an index of the buffer; an index at or past its length holds none (R40, R48). -/
def Memory.read (m : Memory) (i : Nat) : Option Byte := m[i]?

/-- The buffer as address and byte pairs, the front at address 0. -/
def Memory.cells (m : Memory) : List Host.Cell := m.zipIdx.map fun cell => (cell.2, cell.1)

/-- The canonical form of the cells: addresses strictly rising, from 0 with no hole (log 13). -/
def Memory.wf (m : Memory) : Bool := (Memory.cells m).map Prod.fst == List.range m.length

/-! ### Registers and traces -/

/-- `CRC_ACC <- v`. -/
def State.setCrcAcc (v : U16) (s : State) : State := { s with crcAcc := v }

/-- `LINK <- v`. -/
def State.setLink (v : Link) (s : State) : State := { s with link := v }

/-- `TX_STREAM <- TX_STREAM ++ bytes` (R166). -/
def State.appendTx (bytes : List Byte) (s : State) : State := { s with txStream := s.txStream ++ bytes }

/-- `RX_STREAM <- RX_STREAM ++ chunk` (R172). -/
def State.appendRx (chunk : List Byte) (s : State) : State := { s with rxStream := s.rxStream ++ chunk }

/-- `DIAG_OUT <- DIAG_OUT ++ records` (R139, R174). -/
def State.appendDiag (records : List DiagRecord) (s : State) : State := { s with diagOut := s.diagOut ++ records }

/-- `RXBUF <- m`, by the actions of R42 one `FEED` takes. -/
def State.setRxbuf (m : Memory) (s : State) : State := { s with rxbuf := m }

/-- `emit` of a sequence of events: `EVT_OUT <- EVT_OUT ++ events` (spec/00_scope.md 5.3). -/
def State.emit (events : List Event) (s : State) : State := { s with evtOut := s.evtOut ++ events }

/-! ### Ending an operation -/

/-- The operation ends with a result, which returns to the agent that issued it (R16, R214). -/
def State.respond (issuer : Agent) (result : Result) (s : State) : State :=
  { s with resOut := s.resOut ++ [{ issuer := issuer, result := result }] }

/-- `raise E(info)`, and `refuse R` alike (spec/00_scope.md 5.3): TAKING AN EXCEPTION on this block. "No error or event
saves state, changes a mode, switches a stack or transfers control to a handler" (R214): the operation ends, and the kind
with the value it records is its result. There is no return from one, "because nothing is entered" (R217). -/
def State.raise (issuer : Agent) (kind : ErrorKind) (s : State) : State := s.respond issuer (.error kind)

end Sys2Proof.Machine
end

