-- ==== Sys2Proof/Machine/Dispatcher.lean ====
section
/-! DEFINITION. The Frame Dispatcher (spec/44_dispatcher.md): `DISPATCH`, and the stream of domain events. -/

namespace Sys2Proof.Machine

/-- `reading = raw * 3.3 / 4095.0` (R193): the exact rational number by default; under another number system the value is
open (log 7). -/
def sensorReadingOf (numerics : Config.Numerics) (raw : U16) : Rat :=
  match numerics with
  | .exact => (raw.toNat : Rat) * Config.sensorVref / Config.sensorFullScale
  | .implementation => Config.implementationReading raw

/-- `DISPATCH` on a payload (R190 to R194): code `0x10` with at least 4 bytes is a sensor report; everything else is
ignored. Byte 1 and the bytes from offset 4 on are not read (R192). -/
def dispatchPayload (numerics : Config.Numerics) (payload : List Byte) : Option DomainEvent :=
  match payload with
  | cmd :: _ :: rawHi :: rawLo :: _ =>
    if cmd = Config.sensorCmd then
      some (.sensorReading (be16 rawHi rawLo) (sensorReadingOf numerics (be16 rawHi rawLo)))
    else none
  | _ => none

/-- `DISPATCH payload` (R190): no state is read or written. -/
def execDispatch (payload : List Byte) (s : State) : Outcome :=
  .next (s.respond .host (.domain (dispatchPayload s.params.numerics payload)))

/-- What one event of `EVT_OUT` becomes: a payload is dispatched, a mismatch never reaches `DISPATCH` (R194, R195). -/
def dispatchEvent (numerics : Config.Numerics) : Event → Option DomainEvent
  | .validatedPayload payload => dispatchPayload numerics payload
  | .checksumMismatch => none

/-- `DOM_OUT` (R195): a function of `EVT_OUT`, not state. -/
def State.domOut (s : State) : List DomainEvent := s.evtOut.filterMap (dispatchEvent s.params.numerics)

end Sys2Proof.Machine
end

