-- ==== Sys2Proof/Machine/Crc.lean ====
section
/-! DEFINITION. The Checksum Codec (spec/40_crc.md): the byte step R91, the whole-sequence function R92, and the six
operations R94 to R99. -/

namespace Sys2Proof.Machine

/-- One bit shift of R91: shift toward bit 0 with zero fill, and XOR the polynomial after the shift if the bit shifted
out was 1. -/
def crcShift (c : U16) : U16 := if c.getLsbD 0 then (c >>> 1) ^^^ Config.crcPoly else c >>> 1

/-- `n` bit shifts. -/
def crcShifts : Nat → U16 → U16
  | 0, c => c
  | n + 1, c => crcShifts n (crcShift c)

/-- `crc_step(c, b)` (R91): XOR the byte into bits 7..0, then one bit shift per input bit. -/
def crcStep (c : U16) (b : Byte) : U16 := crcShifts 8 (c ^^^ b.setWidth 16)

/-- `next c`: the value `c` is brought to a numeral before it is handed on, so that the checksum of a long sequence
evaluates one byte at a time. -/
def settled (c : U16) (next : U16 → U16) : U16 :=
  match c.toNat with
  | 0 => next 0#16
  | n + 1 => next (BitVec.ofNat 16 (n + 1))

/-- `crc_step` over the bytes of a sequence, in order, first byte first (the loop of R92). -/
def crcFold : U16 → List Byte → U16
  | c, [] => c
  | c, b :: t => settled (crcStep c b) fun c' => crcFold c' t

/-- `crc16(s)` (R92): from the seed, with no final XOR and no reflection of the result. -/
def crc16 (s : List Byte) : U16 := crcFold Config.crcSeed s

/-- `CRC.INIT` (R94). -/
def execCrcInit (s : State) : Outcome := .next ((s.setCrcAcc Config.crcSeed).respond .host .ok)

/-- `CRC.UPD b` (R95). -/
def execCrcUpd (b : Byte) (s : State) : Outcome := .next ((s.setCrcAcc (crcStep s.crcAcc b)).respond .host .ok)

/-- `CRC.RD` (R96): reading does not change the accumulator. -/
def execCrcRd (s : State) : Outcome := .next (s.respond .host (.word s.crcAcc))

/-- `CRC.RDLE` (R97): the low byte is first. -/
def execCrcRdle (s : State) : Outcome := .next (s.respond .host (.bytes (le16Bytes s.crcAcc)))

/-- The document's `checksum(bytes, offset, length)` (R93): defined when the range lies in the sequence. -/
def checksum (bytes : List Byte) (offset length : Nat) : Option U16 :=
  if rangeInside bytes offset length then some (crc16 (slice bytes offset length)) else none

/-- `CRC.SUM bytes, offset, length` (R98): `CRC_ACC` is neither read nor written. -/
def execCrcSum (bytes : List Byte) (offset length : Nat) (s : State) : Outcome :=
  match checksum bytes offset length with
  | some sum => .next (s.respond .host (.word sum))
  | none => .next (s.raise .host .operandRefused)

/-- `CRC.SUMLE bytes, offset, length` (R99). -/
def execCrcSumle (bytes : List Byte) (offset length : Nat) (s : State) : Outcome :=
  match checksum bytes offset length with
  | some sum => .next (s.respond .host (.bytes (le16Bytes sum)))
  | none => .next (s.raise .host .operandRefused)

/-- Pseudo-operation `CRC.OF s` (R83): `CRC.INIT`, one `CRC.UPD` for each byte, then `CRC.RD`. -/
def crcOf (s : List Byte) : List Instr := .crcInit :: s.map .crcUpd ++ [.crcRd]

end Sys2Proof.Machine
end

