-- ==== Sys2Proof/Machine/Serializer.lean ====
section
/-! DEFINITION. The Frame Serializer (spec/41_serializer.md): `PACK`. -/

namespace Sys2Proof.Machine

/-- Whether an operand of `PACK` is longer than its capacity parameter (R119). -/
def packOverCapacity (p : Params) (shape : FrameShape) (payload : List Byte) : Bool :=
  exceeds p.hdrMax shape.header.length || exceeds p.trlMax shape.trailer.length
    || exceeds p.payloadMax payload.length

/-- Steps 2 to 6 of `PACK` (R110 to R117): the fields in the order header, length, payload, checksum, trailer. -/
def frameBytes (shape : FrameShape) (payload : List Byte) : List Byte :=
  shape.header
    ++ (if shape.useLength then be16Bytes (BitVec.ofNat 16 (FrameLength.total shape payload)) else [])
    ++ payload
    ++ (if shape.useChecksum then le16Bytes (crc16 payload) else [])
    ++ shape.trailer

/-- The frame `PACK` produces (R110), or `none` where it is refused: the capacity parameters are tested before the length
sum (R213), and the sum is never reduced modulo 65536 (R113, R119). -/
def packFrame (p : Params) (shape : FrameShape) (payload : List Byte) : Option (List Byte) :=
  if packOverCapacity p shape payload then none
  else if shape.useLength && decide (Config.lenFieldMax < FrameLength.total shape payload) then none
  else some (frameBytes shape payload)

/-- `PACK shape, payload` (R110): a pure function of its inputs; no state is read or written. -/
def execPack (shape : FrameShape) (payload : List Byte) (s : State) : Outcome :=
  match packFrame s.params shape payload with
  | some frame => .next (s.respond .host (.bytes frame))
  | none => .next (s.raise .host .operandRefused)

end Sys2Proof.Machine
end

