-- ==== Sys2Proof/Machine/Parser.lean ====
section
/-! DEFINITION. The Frame Stream Parser (spec/42_deserializer.md): `FEED`. One pass of the loop is a function from the
buffer to one of the rows of R150; the loop repeats it; `FEED` applies the loop to the state. -/

namespace Sys2Proof.Machine

/-- `find2(s, m)` (spec/00_scope.md 5.2, R133): the least index at which `m0` is immediately followed by `m1`. -/
def find2 (m0 m1 : Byte) : List Byte → Option Nat
  | a :: b :: t => if a = m0 ∧ b = m1 then some 0 else (find2 m0 m1 (b :: t)).map (· + 1)
  | _ => none

/-- The ways one pass of the loop can go (R150). A pass that waits leaves the candidate in the buffer; every other one
names the buffer the next pass starts from. -/
inductive Pass where
  /-- Step 1, no marker: everything is discarded, the call is over (R134). -/
  | noMarker
  /-- Step 3 or 6: fewer than 4 bytes, or fewer than `total_len`: the call is over (R136, R141). -/
  | wait (candidate : Memory)
  /-- Step 5: a length outside `6..1024`; one byte is dropped (R139). -/
  | badLength (totalLen : U16) (rest : Memory)
  /-- Step 8: an empty payload; the frame is dropped silently (R142). -/
  | emptyPayload (rest : Memory)
  /-- Step 11: the checksums differ; the frame is dropped (R146). -/
  | mismatch (rest : Memory)
  /-- Step 11: the checksums agree (R147). -/
  | deliver (payload : List Byte) (rest : Memory)
  deriving DecidableEq, Repr

/-- Step 5's test (R138): the legal values are exactly `6..1024`. -/
def lengthLegal (totalLen : U16) : Bool :=
  decide (Config.rxLenMin ≤ totalLen.toNat) && decide (totalLen.toNat ≤ Config.rxLenMax)

/-- The payload of a whole frame, `frame[4 .. 4 + payload_len)` (R142, R144). -/
def framePayload (frame : List Byte) (totalLen : Nat) : List Byte :=
  slice frame Config.rxHdrLen (totalLen - Config.rxOverhead)

/-- The stored checksum of a whole frame, `le16(frame[total_len - 2], frame[total_len - 1])` (R145). Both bytes exist, so
the default is never read. -/
def frameStored (frame : List Byte) (totalLen : Nat) : U16 :=
  le16 (frame.getD (totalLen - 2) 0#8) (frame.getD (totalLen - 1) 0#8)

/-- Steps 8 to 11 on an extracted frame (R142 to R147). -/
def judgeFrame (frame : List Byte) (totalLen : Nat) (rest : Memory) : Pass :=
  if totalLen - Config.rxOverhead = 0 then .emptyPayload rest
  else if crc16 (framePayload frame totalLen) = frameStored frame totalLen then
    .deliver (framePayload frame totalLen) rest
  else .mismatch rest

/-- Steps 3 to 11 on a buffer that starts with the marker (R136 to R147), the checks in the order of R212. -/
def candidatePass (c : Memory) : Pass :=
  match c with
  | _ :: _ :: lenHi :: lenLo :: _ =>
    let totalLen := be16 lenHi lenLo
    if lengthLegal totalLen = false then .badLength totalLen (bufDrop 1 c)
    else if c.length < totalLen.toNat then .wait c
    else judgeFrame (bufFront totalLen.toNat c) totalLen.toNat (bufDrop totalLen.toNat c)
  | _ => .wait c

/-- One pass: search from the start (R133), drop what precedes the marker (R135), then the candidate. -/
def onePass (buf : Memory) : Pass :=
  match find2 Config.markerHi Config.markerLo buf with
  | none => .noMarker
  | some i => candidatePass (bufDrop i buf)

/-- What a run of the loop leaves: the residual (R152), the events in order, and the diagnostic records in order. -/
structure Parsed where
  rest   : Memory
  events : List Event
  diags  : List DiagRecord
  deriving DecidableEq, Repr

/-- The result of a later part of the loop with what an earlier pass reported put in front. -/
def Parsed.after (events : List Event) (diags : List DiagRecord) (r : Parsed) : Parsed :=
  { r with events := events ++ r.events, diags := diags ++ r.diags }

/-- The loop (R131), at most `fuel` passes. An invalid length leaves a record only when `LOG_INVALID_LENGTH` (R139). -/
def parseLoop (logInvalid : Bool) : Nat → Memory → Parsed
  | 0, buf => { rest := buf, events := [], diags := [] }
  | fuel + 1, buf =>
    match onePass buf with
    | .noMarker => { rest := bufDiscard, events := [], diags := [] }
    | .wait candidate => { rest := candidate, events := [], diags := [] }
    | .badLength totalLen rest =>
      (parseLoop logInvalid fuel rest).after [] (if logInvalid then [.invalidLength totalLen] else [])
    | .emptyPayload rest => parseLoop logInvalid fuel rest
    | .mismatch rest => (parseLoop logInvalid fuel rest).after [.checksumMismatch] []
    | .deliver payload rest => (parseLoop logInvalid fuel rest).after [.validatedPayload payload] []

/-- The whole loop on a buffer: it "ends after at most `len(RXBUF) + 1` passes" (R131), so that many always suffice
(log 26). -/
def parse (logInvalid : Bool) (buf : Memory) : Parsed := parseLoop logInvalid (buf.length + 1) buf

/-- `FEED chunk` by either agent (R130): append, run the loop, and return the events to the agent. One atomic step
(R53). -/
def State.feed (issuer : Agent) (chunk : List Byte) (s : State) : State :=
  let r := parse s.params.logInvalidLength (bufAppend s.rxbuf chunk)
  (((s.setRxbuf r.rest).emit r.events).appendDiag r.diags).respond issuer (.events r.events)

/-- `FEED chunk` issued by `HOST` (R130, D16); it always ends with a result (R149). -/
def execFeed (chunk : List Byte) (s : State) : Outcome := .next (s.feed .host chunk)

end Sys2Proof.Machine
end

