-- ==== Sys2Proof/Machine/Transport.lean ====
section
/-! DEFINITION. The Transport Channel (spec/43_transport.md): `OPEN`, `WRITE`, `CLOSE`, and the steps of the receive loop.
What the device does is the environment's draw, `s.draw` (R23; log 4). -/

namespace Sys2Proof.Machine

/-- `OPEN config` (R162, R163): the prior session, if any, is closed first and is not restored by a failure. `config` is
read by no rule (R165). -/
def execOpen (_config : LinkConfig) (s : State) : Outcome :=
  let closed := if s.link = .opened then s.setLink .closed else s
  if s.draw.ok then .next ((closed.setLink .opened).respond .host .ok)
  else .next (closed.raise .host .linkOpenError)

/-- `WRITE bytes` (R166 to R168): `LINK` is tested before the device is touched (R213). A failing write puts the first `k`
bytes out, `k` drawn from `0 .. len(bytes)`; a larger draw stands for `len(bytes)` (log 25). -/
def execWrite (bytes : List Byte) (s : State) : Outcome :=
  if s.link = .opened then
    if s.draw.ok then .next ((s.appendTx bytes).respond .host .ok)
    else .next ((s.appendTx (bytes.take s.draw.taken)).raise .host .linkWriteError)
  else .next (s.raise .host .notConnectedError)

/-- `CLOSE` (R170): from either state of the link, with result `Ok`. -/
def execClose (s : State) : Outcome := .next ((s.setLink .closed).respond .host .ok)

/-- An `RXLOOP` step "enabled only while `LINK = Open`" (R172 to R175): while the link is closed there is no such step
(log 11). -/
def whileOpen (label : Byte) (s : State) (step : Outcome) : Outcome :=
  if s.link = .opened then step else .fault (.rxStepNotEnabled label)

/-- `RX.DATA chunk` (R172): the received stream grows and `FEED` runs, in the same atomic step. -/
def execRxData (chunk : List Byte) (s : State) : Outcome :=
  whileOpen 0x80#8 s
    (if chunkInRange s.params.scratchSize chunk then .next ((s.appendRx chunk).feed .rxloop chunk)
    else .fault .rxChunkOutOfRange)

/-- `RX.IDLE` (R173): no state changes, the loop reads again. -/
def execRxIdle (s : State) : Outcome := whileOpen 0x81#8 s (.next s)

/-- `RX.ERR` (R174): one record; the link stays open and the loop goes on, with no limit (R179). -/
def execRxErr (s : State) : Outcome := whileOpen 0x82#8 s (.next (s.appendDiag [.transientReadError]))

end Sys2Proof.Machine
end

