-- ==== Sys2Proof/Machine/Wire.lean ====
section
/-! DEFINITION. The wire rows of the opcode table (R73). "A `WIRE` row is not an operation; its `rule` names the rule that
consumes or produces the pattern": the meaning of a wire row is that rule carried out on the pattern, issued by `HOST`
(DESIGN CHOICE, log 9). -/

namespace Sys2Proof.Machine

/-- `SEND shape, payload` (R81): `PACK`, then `WRITE` of its result. "If the `PACK` is refused the `WRITE` is not issued.
The two steps are separate operations and other agents' steps may fall between them": the `PACK` is this step, and the
`WRITE` is issued after `draw.gap` of the steps that stand to be issued (log 10). -/
def State.send (shape : FrameShape) (payload : List Byte) (s : State) : Outcome :=
  match packFrame s.params shape payload with
  | none => .next (s.raise .host .operandRefused)
  | some frame =>
    let packed := s.respond .host (.bytes frame)
    let writeIssue : Issue := { line := encode (.write frame), draw := { s.draw with gap := 0 } }
    .next { packed with
      pending := s.pending.take s.draw.gap ++ writeIssue :: s.pending.drop s.draw.gap }

/-- `CMD.OUT n` (R82): `SEND SHAPE_FIXED, [00 00 00 n]`, which puts the frame `CMDF.n` on the link. -/
def State.cmdOut (n : Byte) (s : State) : Outcome := s.send shapeFixed [0x00#8, 0x00#8, 0x00#8, n]

/-- `RXF.PREFIX` (R62; rule R130): the parser consumes the prefix and what follows it. -/
def execRxfPrefix (totalLen : U16) (rest : List Byte) (s : State) : Outcome :=
  .next (s.feed .host (rxfBytes totalLen rest))

/-- `CMDF.0` (R63; rule R82). -/
def execCmdf0 (s : State) : Outcome := s.cmdOut 0x00#8

/-- `CMDF.1` (R63; rule R82). -/
def execCmdf1 (s : State) : Outcome := s.cmdOut 0x01#8

/-- `CMDF.2` (R63; rule R82). -/
def execCmdf2 (s : State) : Outcome := s.cmdOut 0x02#8

/-- `CMDF.3` (R63; rule R82). -/
def execCmdf3 (s : State) : Outcome := s.cmdOut 0x03#8

/-- `SENS.PREFIX` (R64; rule R190): the dispatcher consumes the payload. -/
def execSensPrefix (unread : Byte) (raw : U16) (rest : List Byte) (s : State) : Outcome :=
  .next (s.respond .host (.domain (dispatchPayload s.params.numerics (sensBytes unread raw rest))))

end Sys2Proof.Machine
end

