-- ==== Sys2Proof/Machine/Dispatch.lean ====
section
/-! DEFINITION. One arm per constructor of `Instr`, each a direct call of its meaning. -/

namespace Sys2Proof.Machine

def exec (i : Instr) (s : State) : Host.Outcome State Fault Refusal :=
  match i with
  -- Checksum Codec (40_crc.md)
  | .crcInit => Sys2Proof.Machine.execCrcInit s
  | .crcUpd b => Sys2Proof.Machine.execCrcUpd b s
  | .crcRd => Sys2Proof.Machine.execCrcRd s
  | .crcRdle => Sys2Proof.Machine.execCrcRdle s
  | .crcSum bytes offset length => Sys2Proof.Machine.execCrcSum bytes offset length s
  | .crcSumle bytes offset length => Sys2Proof.Machine.execCrcSumle bytes offset length s
  -- Frame Serializer (41_serializer.md)
  | .pack shape payload => Sys2Proof.Machine.execPack shape payload s
  -- Frame Stream Parser (42_deserializer.md)
  | .feed chunk => Sys2Proof.Machine.execFeed chunk s
  -- Transport Channel (43_transport.md)
  | .openLink config => Sys2Proof.Machine.execOpen config s
  | .write bytes => Sys2Proof.Machine.execWrite bytes s
  | .close => Sys2Proof.Machine.execClose s
  -- Frame Dispatcher (44_dispatcher.md)
  | .dispatch payload => Sys2Proof.Machine.execDispatch payload s
  -- steps of the receive loop (43_transport.md)
  | .rxData chunk => Sys2Proof.Machine.execRxData chunk s
  | .rxIdle => Sys2Proof.Machine.execRxIdle s
  | .rxErr => Sys2Proof.Machine.execRxErr s
  -- wire rows (30_encoding.md R73)
  | .rxfPrefix totalLen rest => Sys2Proof.Machine.execRxfPrefix totalLen rest s
  | .cmdf0 => Sys2Proof.Machine.execCmdf0 s
  | .cmdf1 => Sys2Proof.Machine.execCmdf1 s
  | .cmdf2 => Sys2Proof.Machine.execCmdf2 s
  | .cmdf3 => Sys2Proof.Machine.execCmdf3 s
  | .sensPrefix unread raw rest => Sys2Proof.Machine.execSensPrefix unread raw rest s

end Sys2Proof.Machine
end

