-- ==== Sys2Proof/Machine/Issue.lean ====
section
/-! DEFINITION. What stands around `exec` in a step: taking the next issued step (the block's counterpart of a fetch), and
what happens to one that stands for no instruction. -/

namespace Sys2Proof.Machine

/-- The next step an agent issues, and the state from which it runs: the issue is taken and its draw is in force. `none`
when nothing is issued. The operands are captured whole here (R57). -/
def State.takeIssue (s : State) : Option (Line × State) :=
  match s.pending with
  | [] => none
  | issue :: rest => some (issue.line, { s with pending := rest, draw := issue.draw })

/-- What becomes of a coded step that stands for no instruction. A request with an undefined selector is refused with
`IllegalOp`, and no state changes (R74, R206); an agent step or a wire pattern that the tables lack does not exist
(log 12). -/
def rejectLine (why : Reject) (s : State) : Outcome :=
  match why with
  | .illegalOp selector => .next (s.raise .host (.illegalOp selector))
  | .noSuchAgentStep label => .fault (.noSuchAgentStep label)
  | .emptyChunk => .fault .rxChunkOutOfRange
  | .noSuchWirePattern format => .fault (.noSuchWirePattern format)

/-- The state in which a coded step is the next one issued, under the draw of `s`. A step of the receive loop needs the
loop, which "exists while `LINK = Open`" (R24), so it takes an open link with it (log 22). -/
def State.issueNext (line : Line) (s : State) : State :=
  { s with
    pending := { line := line, draw := s.draw } :: s.pending
    link := match line with
      | .agentStep _ _ => .opened
      | .request _ _ | .wire _ _ => s.link }

end Sys2Proof.Machine
end

