-- ==== Sys2Proof/Machine/Step.lean ====
section
/-! DEFINITION. One step of the machine: the next issued step is taken, decoded and carried out. There is no program
counter (spec/10_state.md R15): the block "carries out operations in the order its agents issue them, one at a time". -/

namespace Sys2Proof.Machine

/-- One step. With nothing issued the block is idle and nothing changes (log 2). -/
def step (s : State) : Host.Outcome State Fault Refusal :=
  match s.takeIssue with
  | none => .next s
  | some (line, t) =>
    match decode line with
    | .ok i => exec i t
    | .error why => rejectLine why t

/-- `s` with the instruction of a table word as the next issued step (log 22). -/
def State.withFetchWord (s : State) (nbits w : Nat) : State := s.issueNext (tableLine nbits w)

end Sys2Proof.Machine
end

