-- ==== Sys2Proof/Safety.lean ====
section
/-! DEFINITION. What claims are stated in terms of: the shapes the receive buffer may have between operations, the
invariant, when an instruction is enabled, what it means for the traces to grow, runs of several operations, and the
parser's loop as a relation, one rule for each row of spec/42_deserializer.md R150. -/

namespace Sys2Proof.Machine

/-- The three shapes of `RXBUF` between operations (R27, R152): (i) empty; (ii) 2 or 3 bytes beginning with the marker;
(iii) at least 4 bytes beginning with the marker, a length in `6..1024`, and fewer bytes than that length. -/
def residualShape (m : Memory) : Bool :=
  match m with
  | [] => true
  | a :: b :: lenHi :: lenLo :: _ =>
    decide (a = 0xEF#8) && decide (b = 0x01#8) && decide (6 ≤ (be16 lenHi lenLo).toNat)
      && decide ((be16 lenHi lenLo).toNat ≤ 1024) && decide (m.length < (be16 lenHi lenLo).toNat)
  | a :: b :: _ => decide (a = 0xEF#8) && decide (b = 0x01#8)
  | [_] => false

/-- A payload on `EVT_OUT` has 1 to 1018 bytes (R19). -/
def Event.legal : Event → Bool
  | .validatedPayload payload => decide (1 ≤ payload.length) && decide (payload.length ≤ 1018)
  | .checksumMismatch => true

/-- A logged length is outside `6..1024`, and is logged only under `LOG_INVALID_LENGTH` (R138, R139). -/
def DiagRecord.legal (logInvalid : Bool) : DiagRecord → Bool
  | .transientReadError => true
  | .invalidLength totalLen => logInvalid && !(decide (6 ≤ totalLen.toNat) && decide (totalLen.toNat ≤ 1024))

/-- A returned error is of a kind that R200 says an agent sees as a result (R203 to R205). -/
def Response.legal (r : Response) : Bool :=
  match r.result with
  | .error kind => kind.isResult
  | .ok | .word _ | .bytes _ | .events _ | .domain _ => true

/-- The invariant of every reachable state (R27), with what R19, R139 and R200 say of the traces, and the least value of
`SCRATCH_SIZE` (R7). -/
def Inv (s : State) : Prop :=
  residualShape s.rxbuf = true ∧ s.evtOut.all Event.legal = true
    ∧ s.diagOut.all (DiagRecord.legal s.params.logInvalidLength) = true
    ∧ s.resOut.all Response.legal = true ∧ 1 ≤ s.params.scratchSize

/-- When an instruction has a step: a step of the receive loop needs an open link, and `RX.DATA` a chunk in range (R172
to R174); every request is legal in every state (R232, R217). -/
def Enabled (i : Instr) (s : State) : Prop :=
  match i with
  | .rxData chunk => s.link = .opened ∧ 1 ≤ chunk.length ∧ chunk.length ≤ s.params.scratchSize
  | .rxIdle | .rxErr => s.link = .opened
  | .crcInit | .crcUpd _ | .crcRd | .crcRdle | .crcSum _ _ _ | .crcSumle _ _ _ => True
  | .pack _ _ | .feed _ | .openLink _ | .write _ | .close | .dispatch _ => True
  | .rxfPrefix _ _ | .cmdf0 | .cmdf1 | .cmdf2 | .cmdf3 | .sensPrefix _ _ _ => True

/-- No trace of `s` is shortened or changed in `t`, only appended to (R14). -/
def TracesGrow (s t : State) : Prop :=
  s.evtOut <+: t.evtOut ∧ s.txStream <+: t.txStream ∧ s.rxStream <+: t.rxStream ∧ s.diagOut <+: t.diagOut
    ∧ s.resOut <+: t.resOut

/-- A state with its traces emptied: what the rules of the block may read (R14). -/
def State.forgetTraces (s : State) : State :=
  { s with evtOut := [], txStream := [], rxStream := [], diagOut := [], resOut := [] }

/-- A state with the traces of another put in front of its own. -/
def State.afterTraces (past t : State) : State :=
  { t with
    evtOut := past.evtOut ++ t.evtOut
    txStream := past.txStream ++ t.txStream
    rxStream := past.rxStream ++ t.rxStream
    diagOut := past.diagOut ++ t.diagOut
    resOut := past.resOut ++ t.resOut }

/-- A state with other values of the two timeouts, the parameters that "no rule" reads (R7, R251). -/
def State.withTimeouts (read write : Nat) (s : State) : State :=
  { s with params := { s.params with readTimeout := read, writeTimeout := write } }

/-- An outcome with its next state changed. -/
def mapNext (f : State → State) : Outcome → Outcome
  | .next t => .next (f t)
  | .fault r => .fault r
  | .refused r => .refused r

/-- An outcome followed by a further operation. -/
def andThen (o : Outcome) (f : State → Outcome) : Outcome :=
  match o with
  | .next t => f t
  | .fault r => .fault r
  | .refused r => .refused r

/-- Operations carried out one after another, as a listing writes them (R83). -/
def execAll : List Instr → State → Outcome
  | [], s => .next s
  | i :: rest, s => andThen (exec i s) (execAll rest)

/-- The bytes hold no marker. -/
def markerFree (s : List Byte) : Prop := find2 0xEF#8 0x01#8 s = none

/-- A cut of the byte stream that does not fall between `0xEF` and `0x01` (R153 (a)). -/
def cleanCut (before after : List Byte) : Prop := ¬(before.getLast? = some 0xEF#8 ∧ after.head? = some 0x01#8)

/-- A stream cut into chunks, none of them empty, with every cut clean (R153 (a)). -/
def cleanlyCut : List (List Byte) → Prop
  | [] => True
  | [chunk] => chunk ≠ []
  | chunk :: next :: rest => chunk ≠ [] ∧ cleanCut chunk next ∧ cleanlyCut (next :: rest)

/-- An `RXF` frame (R62) of a payload and a stored checksum. -/
def rxFrame (payload : List Byte) (stored : U16) : List Byte :=
  rxfBytes (BitVec.ofNat 16 (payload.length + 6)) (payload ++ le16Bytes stored)

/-- The loop of `FEED` as a relation (R130, R150): from a buffer, under `LOG_INVALID_LENGTH`, to the residual, the events
and the diagnostic records. One rule for each way a pass can go; in each, `i` is where the first marker stands. -/
inductive LoopRun (logInvalid : Bool) : Memory → Memory → List Event → List DiagRecord → Prop where
  /-- Step 1. -/
  | noMarker {buf} : find2 0xEF#8 0x01#8 buf = none → LoopRun logInvalid buf [] [] []
  /-- Steps 2 and 3. -/
  | shortHeader {buf i} : find2 0xEF#8 0x01#8 buf = some i → (buf.drop i).length < 4 →
      LoopRun logInvalid buf (buf.drop i) [] []
  /-- Steps 2, 4 and 5. -/
  | badLength {buf i total rest events diags} : find2 0xEF#8 0x01#8 buf = some i → 4 ≤ (buf.drop i).length →
      total = ((buf.drop i).getD 2 0#8).toNat * 256 + ((buf.drop i).getD 3 0#8).toNat →
      (total < 6 ∨ 1024 < total) → LoopRun logInvalid ((buf.drop i).drop 1) rest events diags →
      LoopRun logInvalid buf rest events
        ((if logInvalid then [.invalidLength (BitVec.ofNat 16 total)] else []) ++ diags)
  /-- Steps 2, 4, 5 and 6. -/
  | incomplete {buf i total} : find2 0xEF#8 0x01#8 buf = some i → 4 ≤ (buf.drop i).length →
      total = ((buf.drop i).getD 2 0#8).toNat * 256 + ((buf.drop i).getD 3 0#8).toNat →
      6 ≤ total → total ≤ 1024 → (buf.drop i).length < total → LoopRun logInvalid buf (buf.drop i) [] []
  /-- Steps 2 and 4 to 8, with an empty payload. -/
  | emptyPayload {buf i rest events diags} : find2 0xEF#8 0x01#8 buf = some i → 6 ≤ (buf.drop i).length →
      ((buf.drop i).getD 2 0#8).toNat * 256 + ((buf.drop i).getD 3 0#8).toNat = 6 →
      LoopRun logInvalid ((buf.drop i).drop 6) rest events diags → LoopRun logInvalid buf rest events diags
  /-- Steps 2 and 4 to 11, checksums different. -/
  | mismatch {buf i total rest events diags} : find2 0xEF#8 0x01#8 buf = some i → 4 ≤ (buf.drop i).length →
      total = ((buf.drop i).getD 2 0#8).toNat * 256 + ((buf.drop i).getD 3 0#8).toNat →
      6 < total → total ≤ 1024 → total ≤ (buf.drop i).length →
      (crc16 (slice (buf.drop i) 4 (total - 6))).toNat
        ≠ ((buf.drop i).getD (total - 2) 0#8).toNat + 256 * ((buf.drop i).getD (total - 1) 0#8).toNat →
      LoopRun logInvalid ((buf.drop i).drop total) rest events diags →
      LoopRun logInvalid buf rest (.checksumMismatch :: events) diags
  /-- Steps 2 and 4 to 11, checksums equal. -/
  | deliver {buf i total rest events diags} : find2 0xEF#8 0x01#8 buf = some i → 4 ≤ (buf.drop i).length →
      total = ((buf.drop i).getD 2 0#8).toNat * 256 + ((buf.drop i).getD 3 0#8).toNat →
      6 < total → total ≤ 1024 → total ≤ (buf.drop i).length →
      (crc16 (slice (buf.drop i) 4 (total - 6))).toNat
        = ((buf.drop i).getD (total - 2) 0#8).toNat + 256 * ((buf.drop i).getD (total - 1) 0#8).toNat →
      LoopRun logInvalid ((buf.drop i).drop total) rest events diags →
      LoopRun logInvalid buf rest (.validatedPayload (slice (buf.drop i) 4 (total - 6)) :: events) diags

end Sys2Proof.Machine
end

