-- ==== Sys2Proof/Certificates/Slice0/Obligations.lean ====
section
/-! DEFINITION. The statements for the provers. Each docstring names the rule of spec/ it formalises; a statement that rests
on the model's own choices says so and names the log entry. Throughout, the result of an operation is the record it leaves
in `resOut` (log 3), and what the environment draws is `s.draw` (log 4): both are the model's own fields. A rule that the
spec marks as derived is named as an inference of the spec. -/

open Sys2Proof Sys2Proof.Machine

/-! ### Reset and the invariant -/

/-- R25: "`CRC_ACC = 0xFFFF`, `RXBUF = []`, `LINK = Closed`, and all four traces empty." -/
def Obligations.ResetHoldsTheResetValues : Prop :=
  State.reset.crcAcc = 0xFFFF#16 ∧ State.reset.rxbuf = [] ∧ State.reset.link = .closed ∧ State.reset.evtOut = []
    ∧ State.reset.txStream = [] ∧ State.reset.rxStream = [] ∧ State.reset.diagOut = []

/-- R27, an inference of the spec (with R19, R139, R200, R7), at reset. -/
def Obligations.ResetMeetsTheInvariant : Prop := Inv State.reset

/-- R27, an inference of the spec: the three shapes of `RXBUF` "between operations", kept by every step from every state
that has them; with them
the bounds of delivered payloads (R19), the logged lengths (R139), the kinds that are results (R200) and the least
`SCRATCH_SIZE` (R7). -/
def Obligations.EveryStepKeepsTheInvariant : Prop :=
  ∀ s t : State, Inv s → step s = .next t → Inv t

/-- R232, an inference of the spec: what the first operations after reset give. -/
def Obligations.FirstOperationsAfterReset : Prop :=
  exec .crcRd State.reset = .next { State.reset with resOut := [⟨.host, .word 0xFFFF#16⟩] }
    ∧ exec .crcRdle State.reset = .next { State.reset with resOut := [⟨.host, .bytes [0xFF#8, 0xFF#8]⟩] }
    ∧ (∀ bytes, exec (.write bytes) State.reset
        = .next { State.reset with resOut := [⟨.host, .error .notConnectedError⟩] })
    ∧ exec .close State.reset = .next { State.reset with resOut := [⟨.host, .ok⟩] }
    ∧ (∀ chunk t, exec (.rxData chunk) State.reset ≠ .next t) ∧ (∀ t, exec .rxIdle State.reset ≠ .next t)
    ∧ (∀ t, exec .rxErr State.reset ≠ .next t)

/-! ### The Checksum Codec -/

/-- R94, `CRC.INIT`, with its frame: nothing but the accumulator (and the returned result) changes. -/
def Obligations.CrcInitSeedsTheAccumulator : Prop :=
  (∀ o : Operands, decode (.request 0x10#8 o) = .ok .crcInit)
    ∧ ∀ s : State, exec .crcInit s
        = .next { s with crcAcc := 0xFFFF#16, resOut := s.resOut ++ [⟨.host, .ok⟩] }

/-- R95, `CRC.UPD b`, with its frame and its worked example. -/
def Obligations.CrcUpdTakesOneByteStep : Prop :=
  (∀ o : Operands, decode (.request 0x11#8 o) = .ok (.crcUpd o.b))
    ∧ (∀ (b : Byte) (s : State), exec (.crcUpd b) s
        = .next { s with crcAcc := crcStep s.crcAcc b, resOut := s.resOut ++ [⟨.host, .ok⟩] })
    ∧ crcStep 0xFFFF#16 0x00#8 = 0x40BF#16

/-- R96, `CRC.RD`, with its frame: reading changes nothing. -/
def Obligations.CrcRdReturnsTheAccumulator : Prop :=
  (∀ o : Operands, decode (.request 0x12#8 o) = .ok .crcRd)
    ∧ ∀ s : State, exec .crcRd s = .next { s with resOut := s.resOut ++ [⟨.host, .word s.crcAcc⟩] }

/-- R97, `CRC.RDLE`, with its frame and its worked example: the low byte is first. -/
def Obligations.CrcRdleReturnsTheLowByteFirst : Prop :=
  (∀ o : Operands, decode (.request 0x13#8 o) = .ok .crcRdle)
    ∧ (∀ s : State, exec .crcRdle s = .next { s with
        resOut := s.resOut ++
          [⟨.host, .bytes [BitVec.ofNat 8 (s.crcAcc.toNat % 256), BitVec.ofNat 8 (s.crcAcc.toNat / 256)]⟩] })
    ∧ ∀ s : State, s.crcAcc = 0x6C01#16 →
        exec .crcRdle s = .next { s with resOut := s.resOut ++ [⟨.host, .bytes [0x01#8, 0x6C#8]⟩] }

/-- R98, `CRC.SUM`, in range and refused, with its frame (`CRC_ACC` among the rest) and its worked example. -/
def Obligations.CrcSumChecksumsTheRange : Prop :=
  (∀ o : Operands, decode (.request 0x14#8 o) = .ok (.crcSum o.bytes o.offset o.length))
    ∧ (∀ (bytes : List Byte) (offset length : Nat) (s : State),
        (offset + length ≤ bytes.length → exec (.crcSum bytes offset length) s
          = .next { s with resOut := s.resOut ++ [⟨.host, .word (crc16 ((bytes.drop offset).take length))⟩] })
        ∧ (bytes.length < offset + length → exec (.crcSum bytes offset length) s
          = .next { s with resOut := s.resOut ++ [⟨.host, .error .operandRefused⟩] }))
    ∧ ∀ s : State, exec (.crcSum [0xAA#8, 0x01#8, 0x02#8, 0x03#8, 0xBB#8] 1 3) s
        = .next { s with resOut := s.resOut ++ [⟨.host, .word 0x6161#16⟩] }

/-- R99, `CRC.SUMLE`, in range and refused, with its frame and its worked example. -/
def Obligations.CrcSumleChecksumsTheRange : Prop :=
  (∀ o : Operands, decode (.request 0x15#8 o) = .ok (.crcSumle o.bytes o.offset o.length))
    ∧ (∀ (bytes : List Byte) (offset length : Nat) (s : State),
        (offset + length ≤ bytes.length → exec (.crcSumle bytes offset length) s
          = .next { s with
              resOut := s.resOut ++ [⟨.host, .bytes (le16Bytes (crc16 ((bytes.drop offset).take length)))⟩] })
        ∧ (bytes.length < offset + length → exec (.crcSumle bytes offset length) s
          = .next { s with resOut := s.resOut ++ [⟨.host, .error .operandRefused⟩] }))
    ∧ ∀ s : State, exec (.crcSumle [0x00#8, 0x00#8, 0x00#8, 0x00#8] 0 4) s
        = .next { s with resOut := s.resOut ++ [⟨.host, .bytes [0x00#8, 0x24#8]⟩] }

/-- R91 and R92: the byte step is the bit loop, the checksum is the fold from the seed with nothing after it, and the
check value and worked example the spec gives. -/
def Obligations.ChecksumIsTheBitLoopFromTheSeed : Prop :=
  (∀ (c : U16) (b : Byte), crcStep c b
      = (fun c : U16 => if c.getLsbD 0 = true then (c >>> 1) ^^^ 0xA001#16 else c >>> 1)^[8] (c ^^^ b.setWidth 16))
    ∧ (∀ s : List Byte, crc16 s = s.foldl crcStep 0xFFFF#16)
    ∧ crc16 [0x31#8, 0x32#8, 0x33#8, 0x34#8, 0x35#8, 0x36#8, 0x37#8, 0x38#8, 0x39#8] = 0x4B37#16
    ∧ crcStep 0xFFFF#16 0x41#8 = 0x707F#16 ∧ crc16 [] = 0xFFFF#16

/-- R101, an inference of the spec: the incremental law, for the function and for the operations. -/
def Obligations.ChecksumIsIncremental : Prop :=
  (∀ s t : List Byte, t.foldl crcStep (crc16 s) = crc16 (s ++ t))
    ∧ ∀ (bytes : List Byte) (s : State), execAll (.crcInit :: bytes.map .crcUpd) s
        = .next { s with
            crcAcc := crc16 bytes
            resOut := s.resOut ++ List.replicate (bytes.length + 1) ⟨.host, .ok⟩ }

/-- R83: `CRC.OF [b0 .. bk]` is `CRC.INIT`, the `CRC.UPD`s and `CRC.RD`, and its result is that of
`CRC.SUM [b0 .. bk], 0, k+1`. -/
def Obligations.CrcOfEqualsCrcSum : Prop :=
  ∀ (bytes : List Byte) (s : State), crcOf bytes = [.crcInit] ++ bytes.map .crcUpd ++ [.crcRd]
    ∧ ∃ (t u : State) (v : U16),
        execAll (crcOf bytes) s = .next t ∧ exec (.crcSum bytes 0 bytes.length) s = .next u
          ∧ t.resOut.getLast? = some ⟨.host, .word v⟩ ∧ u.resOut = s.resOut ++ [⟨.host, .word v⟩]

/-- R103 (a), which the spec takes from general knowledge: flipping any single bit of a sequence changes its checksum. -/
def Obligations.SingleBitFlipChangesTheChecksum : Prop :=
  ∀ (before after : List Byte) (b : Byte) (k : Nat), k < 8 →
    crc16 (before ++ b :: after) ≠ crc16 (before ++ (b ^^^ (1#8 <<< k)) :: after)

/-- R103 (b), which the spec takes from general knowledge: the residue. -/
def Obligations.ChecksumResidueIsZero : Prop :=
  ∀ p : List Byte, crc16 (p ++ le16Bytes (crc16 p)) = 0x0000#16

/-- R103 (c), which the spec takes from general knowledge: the table form of the byte step, with the table values the
spec gives. -/
def Obligations.ByteStepHasATableForm : Prop :=
  (∀ (c : U16) (b : Byte),
      crcStep c b = (c >>> 8) ^^^ crcStep ((lowByte (c ^^^ b.setWidth 16)).setWidth 16) 0x00#8)
    ∧ crcStep 0x0001#16 0x00#8 = 0xC0C1#16 ∧ crcStep 0x0002#16 0x00#8 = 0xC181#16
    ∧ crcStep 0x00FF#16 0x00#8 = 0x4040#16

/-! ### The Frame Serializer -/

/-- R110 and R119: `PACK` is refused exactly when an operand exceeds its capacity parameter or the total does not fit, and
otherwise returns the five fields in order; nothing else changes in either case. -/
def Obligations.PackEmitsTheFieldsOrIsRefused : Prop :=
  (∀ o : Operands, decode (.request 0x20#8 o) = .ok (.pack o.shape o.payload))
    ∧ (∀ (shape : FrameShape) (payload : List Byte) (s : State) (total : Nat),
        total = shape.header.length + 2 + payload.length + (if shape.useChecksum = true then 2 else 0)
          + shape.trailer.length →
        (((∃ m, s.params.hdrMax = some m ∧ m < shape.header.length)
            ∨ (∃ m, s.params.trlMax = some m ∧ m < shape.trailer.length)
            ∨ (∃ m, s.params.payloadMax = some m ∧ m < payload.length)
            ∨ (shape.useLength = true ∧ 0xFFFF < total)) →
          exec (.pack shape payload) s
            = .next { s with resOut := s.resOut ++ [⟨.host, .error .operandRefused⟩] })
        ∧ ((∀ m, s.params.hdrMax = some m → shape.header.length ≤ m)
            ∧ (∀ m, s.params.trlMax = some m → shape.trailer.length ≤ m)
            ∧ (∀ m, s.params.payloadMax = some m → payload.length ≤ m)
            ∧ (shape.useLength = true → total ≤ 0xFFFF) →
          exec (.pack shape payload) s
            = .next { s with
                resOut := s.resOut ++ [⟨.host, .bytes (shape.header
                  ++ (if shape.useLength = true then [BitVec.ofNat 8 (total / 256), BitVec.ofNat 8 (total % 256)] else [])
                  ++ payload
                  ++ (if shape.useChecksum = true then
                      [BitVec.ofNat 8 ((crc16 payload).toNat % 256), BitVec.ofNat 8 ((crc16 payload).toNat / 256)]
                    else [])
                  ++ shape.trailer)⟩] }))
    ∧ packFrame Params.default shapeFixed [0x00#8, 0x00#8, 0x00#8, 0x00#8]
        = some [0xEF#8, 0x01#8, 0x00#8, 0x0A#8, 0x00#8, 0x00#8, 0x00#8, 0x00#8, 0x00#8, 0x24#8]

/-- R61: the field positions of `TXF`. -/
def Obligations.PackedFieldsStandAtTheirOffsets : Prop :=
  ∀ (p : Params) (shape : FrameShape) (payload frame : List Byte) (hLen lLen pLen cLen : Nat),
    packFrame p shape payload = some frame → hLen = shape.header.length → pLen = payload.length →
    lLen = (if shape.useLength = true then 2 else 0) → cLen = (if shape.useChecksum = true then 2 else 0) →
    frame.take hLen = shape.header
      ∧ (frame.drop hLen).take lLen = (if shape.useLength = true then
          be16Bytes (BitVec.ofNat 16 (hLen + 2 + pLen + cLen + shape.trailer.length)) else [])
      ∧ (frame.drop (hLen + lLen)).take pLen = payload
      ∧ (frame.drop (hLen + lLen + pLen)).take cLen
          = (if shape.useChecksum = true then le16Bytes (crc16 payload) else [])
      ∧ frame.drop (hLen + lLen + pLen + cLen) = shape.trailer

/-- R121 (a), an inference of the spec: a frame is `H + L + P + C + T` bytes long, and its length field, if present, says so. -/
def Obligations.PackedLengthFieldIsTheFrameLength : Prop :=
  ∀ (p : Params) (shape : FrameShape) (payload frame : List Byte), packFrame p shape payload = some frame →
    frame.length = shape.header.length + (if shape.useLength = true then 2 else 0) + payload.length
        + (if shape.useChecksum = true then 2 else 0) + shape.trailer.length
      ∧ (shape.useLength = true →
          ∃ hi lo, frame[shape.header.length]? = some hi ∧ frame[shape.header.length + 1]? = some lo
            ∧ hi.toNat * 256 + lo.toNat = frame.length)

/-- R121 (b), as corrected there: from an empty receive buffer, feeding the fixed-shape frame of a payload of 1 to 1018
bytes returns exactly that payload and leaves the buffer empty. -/
def Obligations.PackThenFeedRecoversThePayload : Prop :=
  ∀ (s : State) (p frame : List Byte), packFrame s.params shapeFixed p = some frame → s.rxbuf = [] →
    1 ≤ p.length → p.length ≤ 1018 →
    exec (.feed frame) s = .next { s with
      evtOut := s.evtOut ++ [.validatedPayload p]
      resOut := s.resOut ++ [⟨.host, .events [.validatedPayload p]⟩] }

/-- R246 (R121 (b), R120 (a), (h)): frames that can be sent but not received. -/
def Obligations.UnreceivablePayloadsAreNotDelivered : Prop :=
  ∀ (s : State) (p frame : List Byte), packFrame s.params shapeFixed p = some frame → s.rxbuf = [] →
    (p = [] → exec (.feed frame) s = .next { s with resOut := s.resOut ++ [⟨.host, .events []⟩] })
      ∧ (1019 ≤ p.length → ∃ t events, exec (.feed frame) s = .next t
          ∧ t.resOut = s.resOut ++ [⟨.host, .events events⟩] ∧ .validatedPayload p ∉ events)

/-! ### The Frame Stream Parser -/

/-- R130 with R150: `FEED` appends the chunk, runs the loop (the relation `LoopRun`, one rule for each row of R150) on the
buffer, and reports what the loop emits; nothing else changes. -/
def Obligations.FeedRunsTheParserLoop : Prop :=
  (∀ o : Operands, decode (.request 0x30#8 o) = .ok (.feed o.chunk))
    ∧ ∀ (chunk : List Byte) (s : State), ∃ (rest : Memory) (events : List Event) (diags : List DiagRecord),
        LoopRun s.params.logInvalidLength (s.rxbuf ++ chunk) rest events diags
          ∧ exec (.feed chunk) s = .next { s with
              rxbuf := rest
              evtOut := s.evtOut ++ events
              diagOut := s.diagOut ++ diags
              resOut := s.resOut ++ [⟨.host, .events events⟩] }

/-- R133: `find2` is "the least index at which `0xEF` is immediately followed by `0x01`". -/
def Obligations.MarkerSearchFindsTheFirstMarker : Prop :=
  ∀ (s : List Byte) (i : Nat), find2 0xEF#8 0x01#8 s = some i ↔
    s[i]? = some 0xEF#8 ∧ s[i + 1]? = some 0x01#8
      ∧ ∀ j, j < i → ¬(s[j]? = some 0xEF#8 ∧ s[j + 1]? = some 0x01#8)

/-- R134: with no marker in the buffer everything is discarded, a trailing `0xEF` included, and no event is emitted. -/
def Obligations.NoMarkerDiscardsTheWholeBuffer : Prop :=
  (∀ (chunk : List Byte) (s : State),
      (∀ j, ¬((s.rxbuf ++ chunk)[j]? = some 0xEF#8 ∧ (s.rxbuf ++ chunk)[j + 1]? = some 0x01#8)) →
      exec (.feed chunk) s = .next { s with rxbuf := [], resOut := s.resOut ++ [⟨.host, .events []⟩] })
    ∧ ∀ (b : Byte) (s : State), s.rxbuf = [] →
      exec (.feed [b]) s = .next { s with rxbuf := [], resOut := s.resOut ++ [⟨.host, .events []⟩] }

/-- R135: "all bytes before it are dropped (discarded as noise)": a `FEED` whose first marker is at `i` goes as if the
bytes before `i` had never come. -/
def Obligations.NoiseBeforeTheMarkerIsDropped : Prop :=
  ∀ (chunk : List Byte) (s : State) (i : Nat), find2 0xEF#8 0x01#8 (s.rxbuf ++ chunk) = some i →
    exec (.feed chunk) s = exec (.feed ((s.rxbuf ++ chunk).drop i)) { s with rxbuf := [] }

/-- R136 and R141: with fewer than 4 bytes, or fewer than a legal `total_len`, the parser waits and "nothing is
consumed". -/
def Obligations.IncompleteCandidateWaits : Prop :=
  ∀ (chunk t : List Byte) (s : State), s.rxbuf ++ chunk = 0xEF#8 :: 0x01#8 :: t →
    (t.length < 2 ∨ ∃ hi lo u, t = hi :: lo :: u ∧ 6 ≤ hi.toNat * 256 + lo.toNat
      ∧ hi.toNat * 256 + lo.toNat ≤ 1024 ∧ t.length + 2 < hi.toNat * 256 + lo.toNat) →
    exec (.feed chunk) s = .next { s with
      rxbuf := s.rxbuf ++ chunk
      resOut := s.resOut ++ [⟨.host, .events []⟩] }

/-- R139: an illegal length drops exactly one byte and the loop restarts; the record of it is left only under
`LOG_INVALID_LENGTH`, and no event is. -/
def Obligations.InvalidLengthDropsOneByte : Prop :=
  ∀ (chunk t : List Byte) (hi lo : Byte) (s : State) (r : Parsed),
    s.rxbuf ++ chunk = 0xEF#8 :: 0x01#8 :: hi :: lo :: t →
    (hi.toNat * 256 + lo.toNat < 6 ∨ 1024 < hi.toNat * 256 + lo.toNat) →
    r = parse s.params.logInvalidLength (0x01#8 :: hi :: lo :: t) →
    exec (.feed chunk) s = .next { s with
      rxbuf := r.rest
      evtOut := s.evtOut ++ r.events
      diagOut := s.diagOut ++ ((if s.params.logInvalidLength = true then [.invalidLength (be16 hi lo)] else []) ++ r.diags)
      resOut := s.resOut ++ [⟨.host, .events r.events⟩] }

/-- R77: a frame of length 6 is extracted whole and discarded silently, whatever its checksum bytes; it can be sent. -/
def Obligations.EmptyPayloadFrameIsDiscardedSilently : Prop :=
  (∀ (chunk t : List Byte) (lo hi : Byte) (s : State) (r : Parsed),
      s.rxbuf ++ chunk = 0xEF#8 :: 0x01#8 :: 0x00#8 :: 0x06#8 :: lo :: hi :: t →
      r = parse s.params.logInvalidLength t →
      exec (.feed chunk) s = .next { s with
        rxbuf := r.rest
        evtOut := s.evtOut ++ r.events
        diagOut := s.diagOut ++ r.diags
        resOut := s.resOut ++ [⟨.host, .events r.events⟩] })
    ∧ packFrame Params.default shapeFixed [] = some [0xEF#8, 0x01#8, 0x00#8, 0x06#8, 0xFF#8, 0xFF#8]

/-- R146 and R147: a whole frame is delivered or reported according to its checksum, its bytes are gone either way, and
parsing resumes at the byte after it. -/
def Obligations.WholeFrameIsJudgedByItsChecksum : Prop :=
  ∀ (chunk payload t : List Byte) (stored : U16) (s : State) (r : Parsed) (e : Event),
    1 ≤ payload.length → payload.length ≤ 1018 → s.rxbuf ++ chunk = rxFrame payload stored ++ t →
    r = parse s.params.logInvalidLength t →
    e = (if crc16 payload = stored then .validatedPayload payload else .checksumMismatch) →
    exec (.feed chunk) s = .next { s with
      rxbuf := r.rest
      evtOut := s.evtOut ++ e :: r.events
      diagOut := s.diagOut ++ r.diags
      resOut := s.resOut ++ [⟨.host, .events (e :: r.events)⟩] }

/-- R152, an inference of the spec, with R42 and R43: whatever the buffer was, `FEED` ends with one of the three residual shapes, at most 1023 bytes,
and the residual is the back of what the buffer held. -/
def Obligations.FeedLeavesAResidual : Prop :=
  ∀ (chunk : List Byte) (s : State), ∃ t : State, exec (.feed chunk) s = .next t
    ∧ residualShape t.rxbuf = true ∧ t.rxbuf.length ≤ 1023 ∧ t.rxbuf <:+ s.rxbuf ++ chunk

/-- R151, an inference of the spec: `FEED []` changes nothing in a state whose buffer has a residual shape (R27: every reachable one). -/
def Obligations.EmptyChunkChangesNothing : Prop :=
  ∀ s : State, residualShape s.rxbuf = true →
    exec (.feed []) s = .next { s with resOut := s.resOut ++ [⟨.host, .events []⟩] }

/-- R153 (a), an inference of the spec: a stream cut into non-empty chunks, with no cut between a `0xEF` and an immediately following `0x01`, gives
the same events and the same `RXBUF` as the stream in one chunk. -/
def Obligations.CleanCutsDoNotChangeTheEvents : Prop :=
  ∀ (chunks : List (List Byte)) (s : State), chunks ≠ [] → cleanlyCut chunks →
    ∃ t u : State, execAll (chunks.map .feed) s = .next t ∧ exec (.feed chunks.flatten) s = .next u
      ∧ { t with resOut := s.resOut } = { u with resOut := s.resOut }

/-- R240 with R134: a marker split by a chunk boundary loses the frame, and nothing records the loss. -/
def Obligations.SplitMarkerLosesTheFrame : Prop :=
  ∀ (s : State) (t : List Byte), s.rxbuf = [] → markerFree (0x01#8 :: t) →
    execAll [.feed [0xEF#8], .feed (0x01#8 :: t)] s
      = .next { s with resOut := s.resOut ++ [⟨.host, .events []⟩, ⟨.host, .events []⟩] }

/-- R154 (a), an inference of the spec: garbage without a marker, then a valid frame: exactly the frame's payload, whatever follows. -/
def Obligations.ParserResynchronisesPastGarbage : Prop :=
  ∀ (s : State) (garbage p t : List Byte) (r : Parsed), s.rxbuf = [] → markerFree garbage →
    1 ≤ p.length → p.length ≤ 1018 → r = parse s.params.logInvalidLength t →
    exec (.feed (garbage ++ rxFrame p (crc16 p) ++ t)) s = .next { s with
      rxbuf := r.rest
      evtOut := s.evtOut ++ .validatedPayload p :: r.events
      diagOut := s.diagOut ++ r.diags
      resOut := s.resOut ++ [⟨.host, .events (.validatedPayload p :: r.events)⟩] }

/-- R155: any single flipped payload bit gives a `ChecksumMismatch` and no payload, and parsing resumes with what follows;
a length of 5 or 1025 is rejected and parsing advances by one byte. -/
def Obligations.BitFlipIsReportedAndParsingResumes : Prop :=
  (∀ (s : State) (before after t : List Byte) (b : Byte) (k : Nat) (r : Parsed), s.rxbuf = [] → k < 8 →
      before.length + 1 + after.length ≤ 1018 → r = parse s.params.logInvalidLength t →
      exec (.feed (rxFrame (before ++ (b ^^^ (1#8 <<< k)) :: after) (crc16 (before ++ b :: after)) ++ t)) s
        = .next { s with
            rxbuf := r.rest
            evtOut := s.evtOut ++ .checksumMismatch :: r.events
            diagOut := s.diagOut ++ r.diags
            resOut := s.resOut ++ [⟨.host, .events (.checksumMismatch :: r.events)⟩] })
    ∧ ∀ (s : State) (rest : List Byte) (total : U16) (r : Parsed), s.rxbuf = [] →
      (total = 5#16 ∨ total = 1025#16) →
      r = parse s.params.logInvalidLength (0x01#8 :: be16Bytes total ++ rest) →
      exec (.feed (0xEF#8 :: 0x01#8 :: be16Bytes total ++ rest)) s = .next { s with
        rxbuf := r.rest
        evtOut := s.evtOut ++ r.events
        diagOut := s.diagOut ++ ((if s.params.logInvalidLength = true then [.invalidLength total] else []) ++ r.diags)
        resOut := s.resOut ++ [⟨.host, .events r.events⟩] }

/-- R156 with R52: frames that lie back to back are all delivered in one call, in order. -/
def Obligations.BackToBackFramesAreAllDelivered : Prop :=
  ∀ (s : State) (payloads : List (List Byte)), s.rxbuf = [] →
    (∀ p ∈ payloads, 1 ≤ p.length ∧ p.length ≤ 1018) →
    exec (.feed (payloads.map fun p => rxFrame p (crc16 p)).flatten) s = .next { s with
      evtOut := s.evtOut ++ payloads.map .validatedPayload
      resOut := s.resOut ++ [⟨.host, .events (payloads.map .validatedPayload)⟩] }

/-! ### The Transport Channel -/

/-- R162 and R163: `OPEN` for either draw of the environment, from either state of the link; only `LINK` is written. -/
def Obligations.OpenFollowsTheDraw : Prop :=
  (∀ o : Operands, decode (.request 0x40#8 o) = .ok (.openLink o.config))
    ∧ ∀ (config : LinkConfig) (s : State),
        (s.draw.ok = true → exec (.openLink config) s
          = .next { s with link := .opened, resOut := s.resOut ++ [⟨.host, .ok⟩] })
        ∧ (s.draw.ok = false → exec (.openLink config) s
          = .next { s with link := .closed, resOut := s.resOut ++ [⟨.host, .error .linkOpenError⟩] })

/-- R166 to R168: `WRITE` on a closed link, and on an open one for either draw; only `TX_STREAM` is written, and a failing
write puts a prefix out. R166 draws the number of bytes from `0` to the length only; that a draw above the length stands for
the length is the model's choice (log 25), and so is the form of the draw (log 4). -/
def Obligations.WriteFollowsTheLinkAndTheDraw : Prop :=
  (∀ o : Operands, decode (.request 0x41#8 o) = .ok (.write o.bytes))
    ∧ ∀ (bytes : List Byte) (s : State),
        (s.link = .closed → exec (.write bytes) s
          = .next { s with resOut := s.resOut ++ [⟨.host, .error .notConnectedError⟩] })
        ∧ (s.link = .opened → s.draw.ok = true → exec (.write bytes) s
          = .next { s with txStream := s.txStream ++ bytes, resOut := s.resOut ++ [⟨.host, .ok⟩] })
        ∧ (s.link = .opened → s.draw.ok = false → exec (.write bytes) s
          = .next { s with
              txStream := s.txStream ++ bytes.take s.draw.taken
              resOut := s.resOut ++ [⟨.host, .error .linkWriteError⟩] })

/-- R170: `CLOSE` from any state, always `Ok`, and idempotent. -/
def Obligations.CloseAlwaysEndsTheSession : Prop :=
  (∀ o : Operands, decode (.request 0x42#8 o) = .ok .close)
    ∧ ∀ s : State, exec .close s = .next { s with link := .closed, resOut := s.resOut ++ [⟨.host, .ok⟩] }

/-- R172: `RX.DATA` on an open link with a chunk in range appends to `RX_STREAM` and does what `FEED` of the chunk does, in
one step; otherwise there is no such step. That a step which does not exist is a fault is the model's choice (log 11), and
that the events of the `FEED` inside are recorded as returned to `RXLOOP` is its reading of R172 with R214 (log 20). -/
def Obligations.RxDataRecordsAndFeedsTheChunk : Prop :=
  (∀ chunk : List Byte, chunk ≠ [] → decode (.agentStep 0x80#8 chunk) = .ok (.rxData chunk))
    ∧ ∀ (chunk : List Byte) (s : State),
        (s.link = .opened → 1 ≤ chunk.length → chunk.length ≤ s.params.scratchSize →
          ∃ (t : State) (events : List Event),
            exec (.feed chunk) s = .next { t with resOut := s.resOut ++ [⟨.host, .events events⟩] }
              ∧ exec (.rxData chunk) s = .next { t with
                  rxStream := s.rxStream ++ chunk
                  resOut := s.resOut ++ [⟨.rxloop, .events events⟩] })
        ∧ (¬(s.link = .opened ∧ 1 ≤ chunk.length ∧ chunk.length ≤ s.params.scratchSize) →
          ∃ why, exec (.rxData chunk) s = .fault why)

/-- R173 (an inference of the spec) and R174: on an open link `RX.IDLE` changes nothing and `RX.ERR` leaves one record and nothing else. -/
def Obligations.RxIdleAndRxErrLeaveTheLinkOpen : Prop :=
  (∀ chunk : List Byte, decode (.agentStep 0x81#8 chunk) = .ok .rxIdle)
    ∧ (∀ chunk : List Byte, decode (.agentStep 0x82#8 chunk) = .ok .rxErr)
    ∧ ∀ s : State, s.link = .opened →
        exec .rxIdle s = .next s
          ∧ exec .rxErr s = .next { s with diagOut := s.diagOut ++ [.transientReadError] }

/-- R175: once a `CLOSE` has run, or an `OPEN` that failed, no step of the receive loop is enabled. That a step which is not
enabled is a fault is the model's choice (log 11). -/
def Obligations.ClosedLinkStopsTheReceiveLoop : Prop :=
  ∀ (s t : State) (config : LinkConfig),
    (exec .close s = .next t ∨ (s.draw.ok = false ∧ exec (.openLink config) s = .next t)) →
    (∀ chunk, exec (.rxData chunk) t = .fault (.rxStepNotEnabled 0x80#8))
      ∧ exec .rxIdle t = .fault (.rxStepNotEnabled 0x81#8) ∧ exec .rxErr t = .fault (.rxStepNotEnabled 0x82#8)

/-! ### The Frame Dispatcher -/

/-- R190, R193 and R194: a payload of at least 4 bytes whose first is `0x10` is a sensor report, every other one is
ignored; nothing but the result changes. The reading is stated for exact rationals, the default of `READING_NUMERICS`. -/
def Obligations.DispatchReportsSensorReadingsOnly : Prop :=
  (∀ o : Operands, decode (.request 0x50#8 o) = .ok (.dispatch o.payload))
    ∧ (∀ (unread rawHi rawLo : Byte) (rest : List Byte) (s : State), s.params.numerics = .exact →
        exec (.dispatch (0x10#8 :: unread :: rawHi :: rawLo :: rest)) s
          = .next { s with
              resOut := s.resOut ++ [⟨.host, .domain (some (.sensorReading (be16 rawHi rawLo)
                (((rawHi.toNat * 256 + rawLo.toNat : Nat) : Rat) * 33 / 40950)))⟩] })
    ∧ (∀ (unread rawHi rawLo : Byte) (rest : List Byte) (s : State), ∃ reading : Rat,
        exec (.dispatch (0x10#8 :: unread :: rawHi :: rawLo :: rest)) s
          = .next { s with
              resOut := s.resOut ++ [⟨.host, .domain (some (.sensorReading (be16 rawHi rawLo) reading))⟩] })
    ∧ ∀ (payload : List Byte) (s : State), (payload.length < 4 ∨ payload.head? ≠ some 0x10#8) →
        exec (.dispatch payload) s = .next { s with resOut := s.resOut ++ [⟨.host, .domain none⟩] }

/-- R195: `DOM_OUT` is `DISPATCH` applied to the payloads of `EVT_OUT` in order, and each step extends it by what it makes
of the events the step emits. -/
def Obligations.DomOutFollowsEvtOut : Prop :=
  (∀ s : State, s.domOut = (s.evtOut.filterMap fun e => match e with
      | .validatedPayload p => some p
      | .checksumMismatch => none).filterMap (dispatchPayload s.params.numerics))
    ∧ ∀ s t : State, step s = .next t → ∃ events, t.evtOut = s.evtOut ++ events
        ∧ t.domOut = s.domOut ++ events.filterMap (dispatchEvent s.params.numerics)

/-- R197, an inference of the spec: the end-to-end example, from any state with an open link, an empty buffer and room for the chunk. -/
def Obligations.SensorFrameGivesItsReading : Prop :=
  ∀ s : State, s.link = .opened → s.rxbuf = [] → 10 ≤ s.params.scratchSize → s.params.numerics = .exact →
    ∃ t u : State,
      exec (.rxData [0xEF#8, 0x01#8, 0x00#8, 0x0A#8, 0x10#8, 0x00#8, 0x0F#8, 0xA0#8, 0x01#8, 0x6C#8]) s = .next t
        ∧ t.rxbuf = [] ∧ t.evtOut = s.evtOut ++ [.validatedPayload [0x10#8, 0x00#8, 0x0F#8, 0xA0#8]]
        ∧ exec (.dispatch [0x10#8, 0x00#8, 0x0F#8, 0xA0#8]) t = .next u
        ∧ u.resOut = t.resOut ++ [⟨.host, .domain (some (.sensorReading 4000#16 (880 / 273)))⟩]

/-! ### The whole machine -/

/-- R10's column "owner (only writer)", with R12 and R21, over all instructions; the wire row `RXF.PREFIX` is a `FEED`
(log 9) and the `CMDF` rows issue a `WRITE` (log 10). No instruction writes the parameters or the draw. -/
def Obligations.EachElementHasItsOnlyWriters : Prop :=
  ∀ (i : Instr) (s t : State), exec i s = .next t →
    (t.crcAcc = s.crcAcc ∨ i = .crcInit ∨ ∃ b, i = .crcUpd b)
      ∧ ((t.rxbuf = s.rxbuf ∧ t.evtOut = s.evtOut)
          ∨ (∃ c, i = .feed c) ∨ (∃ c, i = .rxData c) ∨ ∃ n r, i = .rxfPrefix n r)
      ∧ (t.link = s.link ∨ (∃ c, i = .openLink c) ∨ i = .close)
      ∧ (t.txStream = s.txStream ∨ ∃ b, i = .write b)
      ∧ (t.rxStream = s.rxStream ∨ ∃ c, i = .rxData c)
      ∧ (t.diagOut = s.diagOut ∨ i = .rxErr
          ∨ (∃ c, i = .feed c) ∨ (∃ c, i = .rxData c) ∨ ∃ n r, i = .rxfPrefix n r)
      ∧ (t.pending = s.pending ∨ i = .cmdf0 ∨ i = .cmdf1 ∨ i = .cmdf2 ∨ i = .cmdf3)
      ∧ t.params = s.params ∧ t.draw = s.draw

/-- R14: the traces are "append-only" and "never shortened", by any step from any state. -/
def Obligations.TracesOnlyGrow : Prop :=
  ∀ s t : State, step s = .next t → TracesGrow s t

/-- R14: the traces are "never read by any rule": an instruction does in a state what it does in the state with its
traces emptied, the old traces standing in front of what it appends. -/
def Obligations.TracesAreNeverRead : Prop :=
  ∀ (i : Instr) (s : State), exec i s = mapNext (State.afterTraces s) (exec i s.forgetTraces)

/-- R7 with R251: the two timeouts are "timing only, read by no rule": with other values of them every instruction does the
same, and leaves them as they are. -/
def Obligations.TimeoutsAreReadByNoRule : Prop :=
  ∀ (i : Instr) (s : State) (read write : Nat),
    exec i (s.withTimeouts read write) = mapNext (State.withTimeouts read write) (exec i s)

/-- R206: a request whose selector is not one of the twelve is refused with `IllegalOp` and the selector, and no state
changes. That the issue is used up and its draw put in force is the model's choice (log 1, log 4). -/
def Obligations.IllegalSelectorIsRefused : Prop :=
  ∀ (s : State) (selector : Byte) (o : Operands) (d : EnvDraw) (rest : List Issue),
    selector ∉ [0x10#8, 0x11#8, 0x12#8, 0x13#8, 0x14#8, 0x15#8, 0x20#8, 0x30#8, 0x40#8, 0x41#8, 0x42#8, 0x50#8] →
    s.pending = { line := .request selector o, draw := d } :: rest →
    step s = .next { s with
      pending := rest
      draw := d
      resOut := s.resOut ++ [⟨.host, .error (.illegalOp selector)⟩] }

/-- R200's columns "raised by" and "state left", with R214 and R216: an instruction that ends with an error is of a kind
that is a result, leaves everything but `LINK` and `TX_STREAM` as it was, closes the link only by a failed `OPEN`, and puts
bytes out only by a failed `WRITE`, a prefix of them. R207 lists `CRC.SUM`, `CRC.SUMLE` and `PACK` as what raises
`OperandRefused`; that a `CMDF` row does is the model's choice, since it carries out a `PACK` (log 9, log 10). -/
def Obligations.ErrorsLeaveTheStateTheSpecNames : Prop :=
  ∀ (i : Instr) (s t : State) (who : Agent) (kind : ErrorKind), exec i s = .next t →
    t.resOut = s.resOut ++ [⟨who, .error kind⟩] →
    who = .host ∧ t = { s with link := t.link, txStream := t.txStream, resOut := t.resOut }
      ∧ ((kind = .linkOpenError ∧ (∃ c, i = .openLink c) ∧ t.link = .closed ∧ t.txStream = s.txStream)
        ∨ (kind = .notConnectedError ∧ (∃ b, i = .write b) ∧ s.link = .closed ∧ t.link = s.link
            ∧ t.txStream = s.txStream)
        ∨ (kind = .linkWriteError ∧ t.link = s.link
            ∧ ∃ b k, i = .write b ∧ t.txStream = s.txStream ++ b.take k)
        ∨ (kind = .operandRefused ∧ t.link = s.link ∧ t.txStream = s.txStream
            ∧ ((∃ b o l, i = .crcSum b o l) ∨ (∃ b o l, i = .crcSumle b o l) ∨ (∃ sh p, i = .pack sh p)
              ∨ i = .cmdf0 ∨ i = .cmdf1 ∨ i = .cmdf2 ∨ i = .cmdf3)))

/-- R200: the codes of the error kinds and of `Ok`; no two kinds share one. -/
def Obligations.ErrorCodesAreTheTables : Prop :=
  Result.ok.code = 0x00#8 ∧ ErrorKind.linkOpenError.code = 0x01#8 ∧ ErrorKind.notConnectedError.code = 0x02#8
    ∧ ErrorKind.transientReadError.code = 0x03#8 ∧ (∀ n, (ErrorKind.invalidLength n).code = 0x04#8)
    ∧ ErrorKind.checksumMismatch.code = 0x05#8 ∧ ErrorKind.linkWriteError.code = 0x06#8
    ∧ (∀ n, (ErrorKind.illegalOp n).code = 0x07#8) ∧ ErrorKind.operandRefused.code = 0x08#8

/-- R54, an inference of the spec: any `HOST` operation other than `FEED`, `OPEN` and `CLOSE` commutes with any step of the receive loop: one order
gives a next state exactly when the other does, and the two differ at most in the order of the results. -/
def Obligations.HostAndReceiveLoopCommute : Prop :=
  ∀ (i j : Instr) (s : State),
    (i = .crcInit ∨ (∃ b, i = .crcUpd b) ∨ i = .crcRd ∨ i = .crcRdle ∨ (∃ b o l, i = .crcSum b o l)
      ∨ (∃ b o l, i = .crcSumle b o l) ∨ (∃ sh p, i = .pack sh p) ∨ (∃ b, i = .write b) ∨ ∃ p, i = .dispatch p) →
    (j = .rxIdle ∨ j = .rxErr ∨ ∃ c, j = .rxData c) →
    ((∃ t, execAll [i, j] s = .next t) ↔ ∃ u, execAll [j, i] s = .next u)
      ∧ ∀ t u : State, execAll [i, j] s = .next t → execAll [j, i] s = .next u →
          { u with resOut := t.resOut } = t ∧ u.resOut.Perm t.resOut

/-- When an instruction has a step, over all instructions and states: exactly when it is enabled (R172 to R175 for the
receive loop; R217, R232: every request in every state). That there is no next state otherwise is the model's choice
(log 11), and the wire rows are requests of the model (log 9). -/
def Obligations.InstructionsCompleteExactlyWhenEnabled : Prop :=
  ∀ (i : Instr) (s : State), (∃ t, exec i s = .next t) ↔ Enabled i s

/-! ### Steps and codes -/

/-- A step runs the decoded instruction from the state in which its issue is taken and its draw is in force; with nothing
issued it changes nothing. The issue list is the model's own (log 1, log 2, log 4); R15 gives the order. -/
def Obligations.StepRunsTheDecodedInstruction : Prop :=
  (∀ (s : State) (issue : Issue) (rest : List Issue) (i : Instr), s.pending = issue :: rest →
      decode issue.line = .ok i → step s = exec i { s with pending := rest, draw := issue.draw })
    ∧ ∀ s : State, s.pending = [] → step s = .next s

/-- Decoding the coded form of a well-formed instruction gives the instruction back, with every operand (R71 to R73). -/
def Obligations.DecodeOfEncodeIsTheInstruction : Prop :=
  ∀ i : Instr, WellFormed i = true → decode (encode i) = .ok i

/-- What decodes is well-formed, and its code or wire bytes are those of its coded form: no two codes stand for one
instruction (R71 to R73; that unused operands are ignored is the model's choice, log 8). -/
def Obligations.DecodedCodesAreCanonical : Prop :=
  ∀ (line : Line) (i : Instr), decode line = .ok i → WellFormed i = true ∧
    match line, encode i with
    | .request selector _, .request selector' _ => selector = selector'
    | .agentStep label _, .agentStep label' _ => label = label'
    | .wire format bytes, .wire format' bytes' => format = format' ∧ bytes = bytes'
    | _, _ => False

/-- Words written out from the opcode table decode to their instructions, one or more of each format. How a bare table word
becomes a coded step is the model's choice (log 22): its operands are zero or empty, and the format of a longer word is
picked by its length and its first byte. -/
def Obligations.TableWordsDecode : Prop :=
  decodeTableWord 8 0x10 = some .crcInit ∧ decodeTableWord 8 0x20 = some (.pack ⟨[], false, false, []⟩ [])
    ∧ decodeTableWord 8 0x30 = some (.feed []) ∧ decodeTableWord 8 0x42 = some .close
    ∧ decodeTableWord 8 0x50 = some (.dispatch []) ∧ decodeTableWord 8 0x81 = some .rxIdle
    ∧ decodeTableWord 32 0xEF01000A = some (.rxfPrefix 10#16 [])
    ∧ decodeTableWord 80 0xEF01000A0000000281E5 = some .cmdf2
    ∧ decodeTableWord 32 0x10000FA0 = some (.sensPrefix 0x00#8 4000#16 [])
    ∧ decodeTableWord 8 0x00 = none ∧ decodeTableWord 8 0x16 = none ∧ decodeTableWord 8 0xFF = none

/-! ### The wire rows -/

/-- R63 and R82: the four command frames are what `PACK` makes of `SHAPE_FIXED, [00 00 00 n]`; the instruction packs and
issues the `WRITE`, and on an open link with a willing device the two steps put the frame on the link. That a `CMDF` row is
carried out as `CMD.OUT n`, and where its `WRITE` is issued, is the model's choice (log 9, log 10). -/
def Obligations.CommandFramesGoOutByPackThenWrite : Prop :=
  ∀ (s : State) (i : Instr) (n : Byte) (frame : List Byte),
    ((i, n, frame) = (.cmdf0, 0x00#8, [0xEF#8, 0x01#8, 0x00#8, 0x0A#8, 0x00#8, 0x00#8, 0x00#8, 0x00#8, 0x00#8, 0x24#8])
      ∨ (i, n, frame) = (.cmdf1, 0x01#8, [0xEF#8, 0x01#8, 0x00#8, 0x0A#8, 0x00#8, 0x00#8, 0x00#8, 0x01#8, 0xC1#8, 0xE4#8])
      ∨ (i, n, frame) = (.cmdf2, 0x02#8, [0xEF#8, 0x01#8, 0x00#8, 0x0A#8, 0x00#8, 0x00#8, 0x00#8, 0x02#8, 0x81#8, 0xE5#8])
      ∨ (i, n, frame) = (.cmdf3, 0x03#8, [0xEF#8, 0x01#8, 0x00#8, 0x0A#8, 0x00#8, 0x00#8, 0x00#8, 0x03#8, 0x40#8, 0x25#8])) →
    frameBytes shapeFixed [0x00#8, 0x00#8, 0x00#8, n] = frame
      ∧ (packFrame s.params shapeFixed [0x00#8, 0x00#8, 0x00#8, n] = none → exec i s
          = .next { s with resOut := s.resOut ++ [⟨.host, .error .operandRefused⟩] })
      ∧ (packFrame s.params shapeFixed [0x00#8, 0x00#8, 0x00#8, n] = some frame → ∃ t : State, exec i s = .next t
          ∧ t = { s with
              resOut := s.resOut ++ [⟨.host, .bytes frame⟩]
              pending := s.pending.take s.draw.gap ++
                { line := encode (.write frame), draw := { s.draw with gap := 0 } } :: s.pending.drop s.draw.gap }
          ∧ (s.draw.gap = 0 → s.link = .opened → s.draw.ok = true →
              step t = .next { s with
                draw := { s.draw with gap := 0 }
                txStream := s.txStream ++ frame
                resOut := s.resOut ++ [⟨.host, .bytes frame⟩, ⟨.host, .ok⟩] }))

/-- R62 and R64: the two prefix rows are consumed by the parser and by the dispatcher: `RXF.PREFIX` does what `FEED` of its
bytes does, and `SENS.PREFIX` what `DISPATCH` of its bytes does, both to completion (the model's choice, log 9). -/
def Obligations.PrefixRowsRunTheirConsumers : Prop :=
  (∀ (hi lo : Byte) (rest : List Byte) (s : State), ∃ t : State,
      exec (.rxfPrefix (be16 hi lo) rest) s = .next t
        ∧ exec (.feed (0xEF#8 :: 0x01#8 :: hi :: lo :: rest)) s = .next t)
    ∧ ∀ (unread hi lo : Byte) (rest : List Byte) (s : State), ∃ (t : State) (reading : Rat),
        exec (.sensPrefix unread (be16 hi lo) rest) s = .next t
          ∧ exec (.dispatch (0x10#8 :: unread :: hi :: lo :: rest)) s = .next t
          ∧ t = { s with
              resOut := s.resOut ++ [⟨.host, .domain (some (.sensorReading (be16 hi lo) reading))⟩] }
end

