-- ==== Sys2Proof/Laws/Bytes.lean ====
section
/-! SUPPORT. Byte order: each conversion has its inverse, and its value as a number (spec/00_scope.md 5.1). -/

namespace Sys2Proof.Machine

theorem be16_toNat (b0 b1 : Byte) : (be16 b0 b1).toNat = b0.toNat * 256 + b1.toNat := by
  have h1 := b1.isLt
  simp only [be16, BitVec.toNat_append]
  rw [← Nat.shiftLeft_add_eq_or_of_lt h1, Nat.shiftLeft_eq]

theorem le16_toNat (b0 b1 : Byte) : (le16 b0 b1).toNat = b0.toNat + 256 * b1.toNat := by
  have h := be16_toNat b1 b0
  simp only [be16] at h
  simp only [le16]
  omega

theorem lowByte_toNat (v : U16) : (lowByte v).toNat = v.toNat % 256 := by
  simp [lowByte, BitVec.extractLsb'_toNat]

theorem highByte_toNat (v : U16) : (highByte v).toNat = v.toNat / 256 := by
  have := v.isLt
  simp only [highByte, BitVec.extractLsb'_toNat, Nat.shiftRight_eq_div_pow]
  omega

@[simp] theorem be16_bytes (v : U16) : be16 (highByte v) (lowByte v) = v := by
  apply BitVec.eq_of_toNat_eq
  rw [be16_toNat, highByte_toNat, lowByte_toNat]
  omega

@[simp] theorem le16_bytes (v : U16) : le16 (lowByte v) (highByte v) = v := be16_bytes v

@[simp] theorem highByte_be16 (b0 b1 : Byte) : highByte (be16 b0 b1) = b0 := by
  apply BitVec.eq_of_toNat_eq
  have := b0.isLt
  have := b1.isLt
  rw [highByte_toNat, be16_toNat]
  omega

@[simp] theorem lowByte_be16 (b0 b1 : Byte) : lowByte (be16 b0 b1) = b1 := by
  apply BitVec.eq_of_toNat_eq
  have := b0.isLt
  have := b1.isLt
  rw [lowByte_toNat, be16_toNat]
  omega

@[simp] theorem be16Bytes_length (v : U16) : (be16Bytes v).length = 2 := rfl

@[simp] theorem le16Bytes_length (v : U16) : (le16Bytes v).length = 2 := rfl

theorem rxMarker_length : rxMarker.length = Config.rxMarkerLen := rfl

end Sys2Proof.Machine
end

