-- ==== Sys2Proof/Laws/State.lean ====
section
/-! SUPPORT. One lemma for each field under each update of the state, so that no later proof unfolds a record update. -/

namespace Sys2Proof.Machine

/-! ### `State.setCrcAcc` -/

@[simp] theorem State.setCrcAcc_crcAcc (s : State) (v : U16) : (s.setCrcAcc v).crcAcc = v := rfl
@[simp] theorem State.setCrcAcc_rxbuf (s : State) (v : U16) : (s.setCrcAcc v).rxbuf = s.rxbuf := rfl
@[simp] theorem State.setCrcAcc_link (s : State) (v : U16) : (s.setCrcAcc v).link = s.link := rfl
@[simp] theorem State.setCrcAcc_evtOut (s : State) (v : U16) : (s.setCrcAcc v).evtOut = s.evtOut := rfl
@[simp] theorem State.setCrcAcc_txStream (s : State) (v : U16) : (s.setCrcAcc v).txStream = s.txStream := rfl
@[simp] theorem State.setCrcAcc_rxStream (s : State) (v : U16) : (s.setCrcAcc v).rxStream = s.rxStream := rfl
@[simp] theorem State.setCrcAcc_diagOut (s : State) (v : U16) : (s.setCrcAcc v).diagOut = s.diagOut := rfl
@[simp] theorem State.setCrcAcc_resOut (s : State) (v : U16) : (s.setCrcAcc v).resOut = s.resOut := rfl
@[simp] theorem State.setCrcAcc_pending (s : State) (v : U16) : (s.setCrcAcc v).pending = s.pending := rfl
@[simp] theorem State.setCrcAcc_draw (s : State) (v : U16) : (s.setCrcAcc v).draw = s.draw := rfl
@[simp] theorem State.setCrcAcc_params (s : State) (v : U16) : (s.setCrcAcc v).params = s.params := rfl

/-! ### `State.setLink` -/

@[simp] theorem State.setLink_crcAcc (s : State) (v : Link) : (s.setLink v).crcAcc = s.crcAcc := rfl
@[simp] theorem State.setLink_rxbuf (s : State) (v : Link) : (s.setLink v).rxbuf = s.rxbuf := rfl
@[simp] theorem State.setLink_link (s : State) (v : Link) : (s.setLink v).link = v := rfl
@[simp] theorem State.setLink_evtOut (s : State) (v : Link) : (s.setLink v).evtOut = s.evtOut := rfl
@[simp] theorem State.setLink_txStream (s : State) (v : Link) : (s.setLink v).txStream = s.txStream := rfl
@[simp] theorem State.setLink_rxStream (s : State) (v : Link) : (s.setLink v).rxStream = s.rxStream := rfl
@[simp] theorem State.setLink_diagOut (s : State) (v : Link) : (s.setLink v).diagOut = s.diagOut := rfl
@[simp] theorem State.setLink_resOut (s : State) (v : Link) : (s.setLink v).resOut = s.resOut := rfl
@[simp] theorem State.setLink_pending (s : State) (v : Link) : (s.setLink v).pending = s.pending := rfl
@[simp] theorem State.setLink_draw (s : State) (v : Link) : (s.setLink v).draw = s.draw := rfl
@[simp] theorem State.setLink_params (s : State) (v : Link) : (s.setLink v).params = s.params := rfl

/-! ### `State.appendTx` -/

@[simp] theorem State.appendTx_crcAcc (s : State) (bytes : List Byte) : (s.appendTx bytes).crcAcc = s.crcAcc := rfl
@[simp] theorem State.appendTx_rxbuf (s : State) (bytes : List Byte) : (s.appendTx bytes).rxbuf = s.rxbuf := rfl
@[simp] theorem State.appendTx_link (s : State) (bytes : List Byte) : (s.appendTx bytes).link = s.link := rfl
@[simp] theorem State.appendTx_evtOut (s : State) (bytes : List Byte) : (s.appendTx bytes).evtOut = s.evtOut := rfl
@[simp] theorem State.appendTx_txStream (s : State) (bytes : List Byte) : (s.appendTx bytes).txStream = s.txStream ++ bytes := rfl
@[simp] theorem State.appendTx_rxStream (s : State) (bytes : List Byte) : (s.appendTx bytes).rxStream = s.rxStream := rfl
@[simp] theorem State.appendTx_diagOut (s : State) (bytes : List Byte) : (s.appendTx bytes).diagOut = s.diagOut := rfl
@[simp] theorem State.appendTx_resOut (s : State) (bytes : List Byte) : (s.appendTx bytes).resOut = s.resOut := rfl
@[simp] theorem State.appendTx_pending (s : State) (bytes : List Byte) : (s.appendTx bytes).pending = s.pending := rfl
@[simp] theorem State.appendTx_draw (s : State) (bytes : List Byte) : (s.appendTx bytes).draw = s.draw := rfl
@[simp] theorem State.appendTx_params (s : State) (bytes : List Byte) : (s.appendTx bytes).params = s.params := rfl

/-! ### `State.appendRx` -/

@[simp] theorem State.appendRx_crcAcc (s : State) (chunk : List Byte) : (s.appendRx chunk).crcAcc = s.crcAcc := rfl
@[simp] theorem State.appendRx_rxbuf (s : State) (chunk : List Byte) : (s.appendRx chunk).rxbuf = s.rxbuf := rfl
@[simp] theorem State.appendRx_link (s : State) (chunk : List Byte) : (s.appendRx chunk).link = s.link := rfl
@[simp] theorem State.appendRx_evtOut (s : State) (chunk : List Byte) : (s.appendRx chunk).evtOut = s.evtOut := rfl
@[simp] theorem State.appendRx_txStream (s : State) (chunk : List Byte) : (s.appendRx chunk).txStream = s.txStream := rfl
@[simp] theorem State.appendRx_rxStream (s : State) (chunk : List Byte) : (s.appendRx chunk).rxStream = s.rxStream ++ chunk := rfl
@[simp] theorem State.appendRx_diagOut (s : State) (chunk : List Byte) : (s.appendRx chunk).diagOut = s.diagOut := rfl
@[simp] theorem State.appendRx_resOut (s : State) (chunk : List Byte) : (s.appendRx chunk).resOut = s.resOut := rfl
@[simp] theorem State.appendRx_pending (s : State) (chunk : List Byte) : (s.appendRx chunk).pending = s.pending := rfl
@[simp] theorem State.appendRx_draw (s : State) (chunk : List Byte) : (s.appendRx chunk).draw = s.draw := rfl
@[simp] theorem State.appendRx_params (s : State) (chunk : List Byte) : (s.appendRx chunk).params = s.params := rfl

/-! ### `State.appendDiag` -/

@[simp] theorem State.appendDiag_crcAcc (s : State) (records : List DiagRecord) : (s.appendDiag records).crcAcc = s.crcAcc := rfl
@[simp] theorem State.appendDiag_rxbuf (s : State) (records : List DiagRecord) : (s.appendDiag records).rxbuf = s.rxbuf := rfl
@[simp] theorem State.appendDiag_link (s : State) (records : List DiagRecord) : (s.appendDiag records).link = s.link := rfl
@[simp] theorem State.appendDiag_evtOut (s : State) (records : List DiagRecord) : (s.appendDiag records).evtOut = s.evtOut := rfl
@[simp] theorem State.appendDiag_txStream (s : State) (records : List DiagRecord) : (s.appendDiag records).txStream = s.txStream := rfl
@[simp] theorem State.appendDiag_rxStream (s : State) (records : List DiagRecord) : (s.appendDiag records).rxStream = s.rxStream := rfl
@[simp] theorem State.appendDiag_diagOut (s : State) (records : List DiagRecord) : (s.appendDiag records).diagOut = s.diagOut ++ records := rfl
@[simp] theorem State.appendDiag_resOut (s : State) (records : List DiagRecord) : (s.appendDiag records).resOut = s.resOut := rfl
@[simp] theorem State.appendDiag_pending (s : State) (records : List DiagRecord) : (s.appendDiag records).pending = s.pending := rfl
@[simp] theorem State.appendDiag_draw (s : State) (records : List DiagRecord) : (s.appendDiag records).draw = s.draw := rfl
@[simp] theorem State.appendDiag_params (s : State) (records : List DiagRecord) : (s.appendDiag records).params = s.params := rfl

/-! ### `State.setRxbuf` -/

@[simp] theorem State.setRxbuf_crcAcc (s : State) (m : Memory) : (s.setRxbuf m).crcAcc = s.crcAcc := rfl
@[simp] theorem State.setRxbuf_rxbuf (s : State) (m : Memory) : (s.setRxbuf m).rxbuf = m := rfl
@[simp] theorem State.setRxbuf_link (s : State) (m : Memory) : (s.setRxbuf m).link = s.link := rfl
@[simp] theorem State.setRxbuf_evtOut (s : State) (m : Memory) : (s.setRxbuf m).evtOut = s.evtOut := rfl
@[simp] theorem State.setRxbuf_txStream (s : State) (m : Memory) : (s.setRxbuf m).txStream = s.txStream := rfl
@[simp] theorem State.setRxbuf_rxStream (s : State) (m : Memory) : (s.setRxbuf m).rxStream = s.rxStream := rfl
@[simp] theorem State.setRxbuf_diagOut (s : State) (m : Memory) : (s.setRxbuf m).diagOut = s.diagOut := rfl
@[simp] theorem State.setRxbuf_resOut (s : State) (m : Memory) : (s.setRxbuf m).resOut = s.resOut := rfl
@[simp] theorem State.setRxbuf_pending (s : State) (m : Memory) : (s.setRxbuf m).pending = s.pending := rfl
@[simp] theorem State.setRxbuf_draw (s : State) (m : Memory) : (s.setRxbuf m).draw = s.draw := rfl
@[simp] theorem State.setRxbuf_params (s : State) (m : Memory) : (s.setRxbuf m).params = s.params := rfl

/-! ### `State.emit` -/

@[simp] theorem State.emit_crcAcc (s : State) (events : List Event) : (s.emit events).crcAcc = s.crcAcc := rfl
@[simp] theorem State.emit_rxbuf (s : State) (events : List Event) : (s.emit events).rxbuf = s.rxbuf := rfl
@[simp] theorem State.emit_link (s : State) (events : List Event) : (s.emit events).link = s.link := rfl
@[simp] theorem State.emit_evtOut (s : State) (events : List Event) : (s.emit events).evtOut = s.evtOut ++ events := rfl
@[simp] theorem State.emit_txStream (s : State) (events : List Event) : (s.emit events).txStream = s.txStream := rfl
@[simp] theorem State.emit_rxStream (s : State) (events : List Event) : (s.emit events).rxStream = s.rxStream := rfl
@[simp] theorem State.emit_diagOut (s : State) (events : List Event) : (s.emit events).diagOut = s.diagOut := rfl
@[simp] theorem State.emit_resOut (s : State) (events : List Event) : (s.emit events).resOut = s.resOut := rfl
@[simp] theorem State.emit_pending (s : State) (events : List Event) : (s.emit events).pending = s.pending := rfl
@[simp] theorem State.emit_draw (s : State) (events : List Event) : (s.emit events).draw = s.draw := rfl
@[simp] theorem State.emit_params (s : State) (events : List Event) : (s.emit events).params = s.params := rfl

/-! ### `State.respond` -/

@[simp] theorem State.respond_crcAcc (s : State) (issuer : Agent) (result : Result) : (s.respond issuer result).crcAcc = s.crcAcc := rfl
@[simp] theorem State.respond_rxbuf (s : State) (issuer : Agent) (result : Result) : (s.respond issuer result).rxbuf = s.rxbuf := rfl
@[simp] theorem State.respond_link (s : State) (issuer : Agent) (result : Result) : (s.respond issuer result).link = s.link := rfl
@[simp] theorem State.respond_evtOut (s : State) (issuer : Agent) (result : Result) : (s.respond issuer result).evtOut = s.evtOut := rfl
@[simp] theorem State.respond_txStream (s : State) (issuer : Agent) (result : Result) : (s.respond issuer result).txStream = s.txStream := rfl
@[simp] theorem State.respond_rxStream (s : State) (issuer : Agent) (result : Result) : (s.respond issuer result).rxStream = s.rxStream := rfl
@[simp] theorem State.respond_diagOut (s : State) (issuer : Agent) (result : Result) : (s.respond issuer result).diagOut = s.diagOut := rfl
@[simp] theorem State.respond_resOut (s : State) (issuer : Agent) (result : Result) : (s.respond issuer result).resOut = s.resOut ++ [{ issuer := issuer, result := result }] := rfl
@[simp] theorem State.respond_pending (s : State) (issuer : Agent) (result : Result) : (s.respond issuer result).pending = s.pending := rfl
@[simp] theorem State.respond_draw (s : State) (issuer : Agent) (result : Result) : (s.respond issuer result).draw = s.draw := rfl
@[simp] theorem State.respond_params (s : State) (issuer : Agent) (result : Result) : (s.respond issuer result).params = s.params := rfl

/-! ### Derived updates -/

/-- Taking an exception is ending with its kind as the result (R214). -/
theorem State.raise_eq_respond (s : State) (issuer : Agent) (kind : ErrorKind) :
    s.raise issuer kind = s.respond issuer (.error kind) := rfl

/-- Everything `FEED` does to the state (R130): the parser's residual, events and records, and the result. -/
theorem State.feed_eq (s : State) (issuer : Agent) (chunk : List Byte) :
    s.feed issuer chunk =
      { s with
        rxbuf := (parse s.params.logInvalidLength (s.rxbuf ++ chunk)).rest
        evtOut := s.evtOut ++ (parse s.params.logInvalidLength (s.rxbuf ++ chunk)).events
        diagOut := s.diagOut ++ (parse s.params.logInvalidLength (s.rxbuf ++ chunk)).diags
        resOut := s.resOut ++
          [{ issuer := issuer, result := .events (parse s.params.logInvalidLength (s.rxbuf ++ chunk)).events }] } := rfl

/-- Taking the next issued step changes `pending` and `draw` only. -/
theorem State.takeIssue_some {s t : State} {line : Line} (h : s.takeIssue = some (line, t)) :
    ∃ issue rest, s.pending = issue :: rest ∧ line = issue.line ∧ t = { s with pending := rest, draw := issue.draw } := by
  unfold State.takeIssue at h
  split at h
  · cases h
  · rename_i issue rest heq
    simp only [Option.some.injEq, Prod.mk.injEq] at h
    exact ⟨issue, rest, heq, h.1.symm, h.2.symm⟩

end Sys2Proof.Machine
end

