-- ==== Sys2Proof/Laws/Crc.lean ====
section
/-! SUPPORT. The checksum's own small lemmas: the fold, and that a bit shift is linear and loses nothing. -/

namespace Sys2Proof.Machine

/-- `settled` only evaluates: it hands its value on. -/
@[simp] theorem settled_eq (c : U16) (next : U16 → U16) : settled c next = next c := by
  unfold settled
  split
  · rename_i h
    rw [show c = 0#16 from BitVec.eq_of_toNat_eq (by simpa using h)]
  · rename_i n h
    rw [show n + 1 = c.toNat from h.symm, BitVec.ofNat_toNat, BitVec.setWidth_eq]

@[simp] theorem crcFold_nil (c : U16) : crcFold c [] = c := rfl

@[simp] theorem crcFold_cons (c : U16) (b : Byte) (t : List Byte) : crcFold c (b :: t) = crcFold (crcStep c b) t := by
  simp [crcFold]

theorem crcFold_append (c : U16) (s t : List Byte) : crcFold c (s ++ t) = crcFold (crcFold c s) t := by
  induction s generalizing c with
  | nil => rfl
  | cons b s ih => simp [ih]

/-- `CRC_XOROUT` is zero, so that leaving the final XOR out, as R92 does, is applying it. -/
theorem crc16_xorOut (s : List Byte) : crc16 s ^^^ Config.crcXorOut = crc16 s := by simp [Config.crcXorOut]

/-- A bit shift is linear over exclusive or. -/
theorem crcShift_xor (a b : U16) : crcShift (a ^^^ b) = crcShift a ^^^ crcShift b := by
  unfold crcShift
  rw [BitVec.getLsbD_xor, BitVec.ushiftRight_xor_distrib]
  cases a.getLsbD 0 <;> cases b.getLsbD 0 <;> simp
  · rw [BitVec.xor_assoc]
  · rw [BitVec.xor_assoc, BitVec.xor_assoc, BitVec.xor_comm _ Config.crcPoly]
  · rw [BitVec.xor_assoc (a >>> 1), ← BitVec.xor_assoc Config.crcPoly, BitVec.xor_comm Config.crcPoly (b >>> 1),
      BitVec.xor_assoc (b >>> 1), BitVec.xor_self, BitVec.xor_zero]

theorem crcShifts_xor (n : Nat) (a b : U16) : crcShifts n (a ^^^ b) = crcShifts n a ^^^ crcShifts n b := by
  induction n generalizing a b with
  | zero => rfl
  | succ n ih => simp only [crcShifts, crcShift_xor, ih]

/-- Bit 15 after a shift is the bit shifted out, since the polynomial has bit 15 set. -/
theorem crcShift_getLsbD_15 (c : U16) : (crcShift c).getLsbD 15 = c.getLsbD 0 := by
  unfold crcShift
  split
  · rename_i h
    simp [Config.crcPoly, h, BitVec.getLsbD_of_ge]
  · rename_i h
    rw [Bool.eq_false_iff.mpr h]
    simp [BitVec.getLsbD_of_ge]

/-- A bit shift sends only zero to zero. -/
theorem crcShift_eq_zero {c : U16} (h : crcShift c = 0#16) : c = 0#16 := by
  have h15 := crcShift_getLsbD_15 c
  rw [h] at h15
  have h0 : c.getLsbD 0 = false := by simpa using h15.symm
  unfold crcShift at h
  rw [if_neg (by rw [h0]; exact Bool.false_ne_true)] at h
  apply BitVec.eq_of_getLsbD_eq
  intro i hi
  cases i with
  | zero => rw [h0]; simp
  | succ i =>
    have := congrArg (fun v : U16 => v.getLsbD i) h
    simpa [Nat.add_comm] using this

theorem crcShifts_eq_zero {n : Nat} {c : U16} (h : crcShifts n c = 0#16) : c = 0#16 := by
  induction n generalizing c with
  | zero => exact h
  | succ n ih => exact crcShift_eq_zero (ih h)

/-- A number of bit shifts loses nothing (R103 (a)). -/
theorem crcShifts_injective (n : Nat) {a b : U16} (h : crcShifts n a = crcShifts n b) : a = b := by
  have : crcShifts n (a ^^^ b) = 0#16 := by rw [crcShifts_xor, h, BitVec.xor_self]
  exact BitVec.xor_eq_zero_iff.mp (crcShifts_eq_zero this)

end Sys2Proof.Machine
end

