-- ==== Sys2Proof/Laws/Ops.lean ====
section
/-! SUPPORT. The spec lemmas of the operand tests and of the receive buffer's canonical form. -/

namespace Sys2Proof.Machine

theorem lengthAtMost_iff (s : List Byte) (n : Nat) : lengthAtMost s n = true ↔ s.length ≤ n := by
  induction s generalizing n with
  | nil => simp [lengthAtMost]
  | cons b t ih => cases n <;> simp [lengthAtMost, ih]

theorem chunkInRange_iff (n : Nat) (chunk : List Byte) :
    chunkInRange n chunk = true ↔ 1 ≤ chunk.length ∧ chunk.length ≤ n := by
  cases chunk <;> simp [chunkInRange, lengthAtMost_iff]

theorem rangeInside_iff (bytes : List Byte) (offset length : Nat) :
    rangeInside bytes offset length = true ↔ offset + length ≤ bytes.length := by
  simp [rangeInside]

/-- An unbounded operand is never refused for its size (D9). -/
@[simp] theorem exceeds_none (n : Nat) : exceeds none n = false := rfl

theorem exceeds_some (most n : Nat) : exceeds (some most) n = true ↔ most < n := by simp [exceeds]

/-- The addresses of the cells are `0, 1, ..` for every buffer, so each operation on the buffer keeps the form (log 13). -/
theorem memory_wf (m : Memory) : Memory.wf m = true := by
  simp [Memory.wf, Memory.cells, List.zipIdx_eq_zip_range', List.map_map, Function.comp_def, List.range_eq_range',
    List.map_snd_zip]

theorem bufAppend_wf (m : Memory) (chunk : List Byte) : Memory.wf (bufAppend m chunk) = true := memory_wf _

theorem bufDrop_wf (n : Nat) (m : Memory) : Memory.wf (bufDrop n m) = true := memory_wf _

theorem bufDiscard_wf : Memory.wf bufDiscard = true := memory_wf _

/-- Reading a byte after an append: the old bytes stand where they stood, the new ones behind them (R42). -/
theorem read_bufAppend (m : Memory) (chunk : List Byte) (i : Nat) :
    Memory.read (bufAppend m chunk) i = if i < m.length then Memory.read m i else Memory.read chunk (i - m.length) := by
  simp [Memory.read, List.getElem?_append]

/-- Reading a byte after `n` bytes left the front (R42). -/
theorem read_bufDrop (m : Memory) (n i : Nat) : Memory.read (bufDrop n m) i = Memory.read m (n + i) := by
  simp [Memory.read, List.getElem?_drop]

end Sys2Proof.Machine
end

