-- ==== Sys2Proof/Laws/Parser.lean ====
section
/-! SUPPORT. The parser: where the marker search lands, that a pass which continues shortens the buffer, and the loop
without its fuel. -/

namespace Sys2Proof.Machine

/-- What precedes a marker found does not matter to what follows it: the buffer from there begins with the marker. -/
theorem find2_some_drop {m0 m1 : Byte} {s : List Byte} {i : Nat} (h : find2 m0 m1 s = some i) :
    ∃ t, s.drop i = m0 :: m1 :: t := by
  induction s generalizing i with
  | nil => simp [find2] at h
  | cons a s ih =>
    cases s with
    | nil => simp [find2] at h
    | cons b t =>
      rw [find2] at h
      split at h
      · rename_i hm
        cases h
        exact ⟨t, by simp [hm.1, hm.2]⟩
      · obtain ⟨j, hj, rfl⟩ := Option.map_eq_some_iff.mp h
        simpa using ih hj

/-- A marker at the front is found at once (R148: "marker search always wins"). -/
theorem find2_front (m0 m1 : Byte) (t : List Byte) : find2 m0 m1 (m0 :: m1 :: t) = some 0 := by simp [find2]

/-- The buffer the next pass starts from, when there is a next pass. -/
def Pass.next : Pass → Option Memory
  | .noMarker | .wait _ => none
  | .badLength _ rest | .emptyPayload rest | .mismatch rest | .deliver _ rest => some rest

/-- Judging an extracted frame always leaves what follows the frame (R143, R146). -/
theorem judgeFrame_next (frame : List Byte) (totalLen : Nat) (rest : Memory) :
    (judgeFrame frame totalLen rest).next = some rest := by
  unfold judgeFrame
  split
  · rfl
  · split <;> rfl

/-- The length test as bounds (R138). -/
theorem lengthLegal_iff (totalLen : U16) : lengthLegal totalLen = true ↔ 6 ≤ totalLen.toNat ∧ totalLen.toNat ≤ 1024 := by
  simp only [lengthLegal, Bool.and_eq_true, decide_eq_true_eq]
  rfl

/-- "Every `continue` shortens `RXBUF`" (R131). -/
theorem candidatePass_shrinks {c rest : Memory} (h : (candidatePass c).next = some rest) : rest.length < c.length := by
  unfold candidatePass at h
  split at h
  · rename_i a b lenHi lenLo t
    simp only at h
    split at h
    · simp only [Pass.next, Option.some.injEq] at h
      subst h
      simp
    · rename_i hlegal
      have hl := (lengthLegal_iff (be16 lenHi lenLo)).mp (by simpa using hlegal)
      split at h
      · simp [Pass.next] at h
      · rw [judgeFrame_next, Option.some.injEq] at h
        subst h
        simp only [List.length_drop, List.length_cons] at *
        omega
  · simp [Pass.next] at h

theorem onePass_shrinks {buf rest : Memory} (h : (onePass buf).next = some rest) : rest.length < buf.length := by
  unfold onePass at h
  split at h
  · simp [Pass.next] at h
  · have := candidatePass_shrinks h
    simp only [List.length_drop] at this
    omega

/-- Any fuel above the buffer's length gives the same run: the loop ends by one of its `break`s (R131; log 26). -/
theorem parseLoop_fuel (logInvalid : Bool) {n m : Nat} {buf : Memory} (hn : buf.length < n) (hm : buf.length < m) :
    parseLoop logInvalid n buf = parseLoop logInvalid m buf := by
  induction n generalizing m buf with
  | zero => omega
  | succ n ih =>
    obtain ⟨m, rfl⟩ : ∃ k, m = k + 1 := ⟨m - 1, by omega⟩
    simp only [parseLoop]
    have key : ∀ rest, (onePass buf).next = some rest → parseLoop logInvalid n rest = parseLoop logInvalid m rest := by
      intro rest h
      have := onePass_shrinks h
      exact ih (by omega) (by omega)
    cases heq : onePass buf with
    | noMarker => rfl
    | wait candidate => rfl
    | badLength totalLen rest => simp only; rw [key rest (by rw [heq]; rfl)]
    | emptyPayload rest => simp only; rw [key rest (by rw [heq]; rfl)]
    | mismatch rest => simp only; rw [key rest (by rw [heq]; rfl)]
    | deliver payload rest => simp only; rw [key rest (by rw [heq]; rfl)]

/-- The loop without its fuel: one pass, and the loop again on what it leaves (R131). -/
theorem parse_unfold (logInvalid : Bool) (buf : Memory) :
    parse logInvalid buf =
      match onePass buf with
      | .noMarker => { rest := [], events := [], diags := [] }
      | .wait candidate => { rest := candidate, events := [], diags := [] }
      | .badLength totalLen rest =>
        (parse logInvalid rest).after [] (if logInvalid then [.invalidLength totalLen] else [])
      | .emptyPayload rest => parse logInvalid rest
      | .mismatch rest => (parse logInvalid rest).after [.checksumMismatch] []
      | .deliver payload rest => (parse logInvalid rest).after [.validatedPayload payload] [] := by
  have key : ∀ rest, (onePass buf).next = some rest →
      parseLoop logInvalid buf.length rest = parse logInvalid rest := by
    intro rest h
    have := onePass_shrinks h
    exact parseLoop_fuel logInvalid (by omega) (by omega)
  rw [parse, parseLoop]
  cases heq : onePass buf with
  | noMarker => rfl
  | wait candidate => rfl
  | badLength totalLen rest => simp only; rw [key rest (by rw [heq]; rfl)]
  | emptyPayload rest => simp only; rw [key rest (by rw [heq]; rfl)]
  | mismatch rest => simp only; rw [key rest (by rw [heq]; rfl)]
  | deliver payload rest => simp only; rw [key rest (by rw [heq]; rfl)]

/-- A pass on a buffer that begins with the marker is a pass on the candidate (R135). -/
theorem onePass_of_marker (t : List Byte) :
    onePass (Config.markerHi :: Config.markerLo :: t) = candidatePass (Config.markerHi :: Config.markerLo :: t) := by
  simp [onePass, find2_front]

/-- A pass that finds no marker (R134). -/
theorem onePass_of_none {buf : Memory} (h : find2 Config.markerHi Config.markerLo buf = none) :
    onePass buf = .noMarker := by
  simp [onePass, h]

@[simp] theorem parsed_after_rest (events : List Event) (diags : List DiagRecord) (r : Parsed) :
    (r.after events diags).rest = r.rest := rfl

@[simp] theorem parsed_after_events (events : List Event) (diags : List DiagRecord) (r : Parsed) :
    (r.after events diags).events = events ++ r.events := rfl

@[simp] theorem parsed_after_diags (events : List Event) (diags : List DiagRecord) (r : Parsed) :
    (r.after events diags).diags = diags ++ r.diags := rfl

end Sys2Proof.Machine
end

