-- ==== Sys2Proof/Laws/Serializer.lean ====
section
/-! SUPPORT. When `PACK` is refused and what it yields otherwise (spec/41_serializer.md R110, R119). -/

namespace Sys2Proof.Machine

theorem packOverCapacity_default (shape : FrameShape) (payload : List Byte) :
    packOverCapacity Params.default shape payload = false := rfl

theorem packFrame_some_iff (p : Params) (shape : FrameShape) (payload frame : List Byte) :
    packFrame p shape payload = some frame ↔
      packOverCapacity p shape payload = false
        ∧ (shape.useLength = true → FrameLength.total shape payload ≤ Config.lenFieldMax)
        ∧ frame = frameBytes shape payload := by
  unfold packFrame
  cases packOverCapacity p shape payload <;> cases shape.useLength <;>
    simp [eq_comm]

theorem packFrame_none_iff (p : Params) (shape : FrameShape) (payload : List Byte) :
    packFrame p shape payload = none ↔
      packOverCapacity p shape payload = true
        ∨ (shape.useLength = true ∧ Config.lenFieldMax < FrameLength.total shape payload) := by
  unfold packFrame
  cases packOverCapacity p shape payload <;> cases shape.useLength <;> simp

/-- The bytes of a frame of the fixed protocol shape (R84): exactly an `RXF` frame (R62). -/
theorem frameBytes_shapeFixed (payload : List Byte) :
    frameBytes shapeFixed payload = rxFrame payload (crc16 payload) := by
  have : FrameLength.total shapeFixed payload = payload.length + 6 := by
    simp [FrameLength.total, FrameLength.checksumField, shapeFixed, rxMarker]
    omega
  unfold frameBytes
  rw [this]
  simp [rxFrame, rxfBytes, shapeFixed]

end Sys2Proof.Machine
end

