-- ==== Sys2Proof/Laws/Exec.lean ====
section
/-! SUPPORT. What a meaning can do, said once: when an instruction has a step, and what a step of the machine is. -/

namespace Sys2Proof.Machine

/-! ### The arms of `exec`, one by one -/

theorem exec_crcInit (s : State) : exec .crcInit s = execCrcInit s := rfl
theorem exec_crcUpd (b) (s : State) : exec (.crcUpd b) s = execCrcUpd b s := rfl
theorem exec_crcRd (s : State) : exec .crcRd s = execCrcRd s := rfl
theorem exec_crcRdle (s : State) : exec .crcRdle s = execCrcRdle s := rfl
theorem exec_crcSum (bytes offset length) (s : State) : exec (.crcSum bytes offset length) s = execCrcSum bytes offset length s := rfl
theorem exec_crcSumle (bytes offset length) (s : State) : exec (.crcSumle bytes offset length) s = execCrcSumle bytes offset length s := rfl
theorem exec_pack (shape payload) (s : State) : exec (.pack shape payload) s = execPack shape payload s := rfl
theorem exec_feed (chunk) (s : State) : exec (.feed chunk) s = execFeed chunk s := rfl
theorem exec_openLink (config) (s : State) : exec (.openLink config) s = execOpen config s := rfl
theorem exec_write (bytes) (s : State) : exec (.write bytes) s = execWrite bytes s := rfl
theorem exec_close (s : State) : exec .close s = execClose s := rfl
theorem exec_dispatch (payload) (s : State) : exec (.dispatch payload) s = execDispatch payload s := rfl
theorem exec_rxData (chunk) (s : State) : exec (.rxData chunk) s = execRxData chunk s := rfl
theorem exec_rxIdle (s : State) : exec .rxIdle s = execRxIdle s := rfl
theorem exec_rxErr (s : State) : exec .rxErr s = execRxErr s := rfl
theorem exec_rxfPrefix (totalLen rest) (s : State) : exec (.rxfPrefix totalLen rest) s = execRxfPrefix totalLen rest s := rfl
theorem exec_cmdf0 (s : State) : exec .cmdf0 s = execCmdf0 s := rfl
theorem exec_cmdf1 (s : State) : exec .cmdf1 s = execCmdf1 s := rfl
theorem exec_cmdf2 (s : State) : exec .cmdf2 s = execCmdf2 s := rfl
theorem exec_cmdf3 (s : State) : exec .cmdf3 s = execCmdf3 s := rfl
theorem exec_sensPrefix (unread raw rest) (s : State) : exec (.sensPrefix unread raw rest) s = execSensPrefix unread raw rest s := rfl

/-! ### What they can do -/

/-- A step of the receive loop takes a next state only while the link is open (R172 to R175). -/
theorem whileOpen_next {label : Byte} {s t : State} {step : Outcome} :
    whileOpen label s step = .next t ↔ s.link = .opened ∧ step = .next t := by
  unfold whileOpen
  split <;> simp [*]

/-- What `SEND` can do (R81): a refused `PACK` issues nothing; otherwise the `WRITE` of the frame is issued. -/
theorem send_cases (shape : FrameShape) (payload : List Byte) (s : State) :
    (packFrame s.params shape payload = none ∧ s.send shape payload = .next (s.raise .host .operandRefused)) ∨
      ∃ frame, packFrame s.params shape payload = some frame ∧
        s.send shape payload = .next
          { s with
            resOut := s.resOut ++ [{ issuer := .host, result := .bytes frame }]
            pending := s.pending.take s.draw.gap ++
              { line := encode (.write frame), draw := { s.draw with gap := 0 } } :: s.pending.drop s.draw.gap } := by
  unfold State.send
  cases h : packFrame s.params shape payload with
  | none => exact .inl ⟨rfl, rfl⟩
  | some frame => exact .inr ⟨frame, rfl, rfl⟩

/-- What `SEND` leaves alone: everything but the results and what is issued next. -/
theorem send_next {shape : FrameShape} {payload : List Byte} {s t : State} (h : s.send shape payload = .next t) :
    ∃ r pending, r.legal = true ∧ t = { s with resOut := s.resOut ++ [r], pending := pending } := by
  rcases send_cases shape payload s with ⟨-, h'⟩ | ⟨frame, -, h'⟩ <;> rw [h'] at h <;> cases h
  · exact ⟨{ issuer := .host, result := .error .operandRefused }, s.pending, rfl, rfl⟩
  · exact ⟨{ issuer := .host, result := .bytes frame }, _, rfl, rfl⟩

/-- What a checksum over a range can do (R98, R99): a result, or a refusal that changes nothing else. -/
theorem checksum_cases (bytes : List Byte) (offset length : Nat) :
    (offset + length ≤ bytes.length ∧
        checksum bytes offset length = some (crc16 ((bytes.drop offset).take length))) ∨
      (bytes.length < offset + length ∧ checksum bytes offset length = none) := by
  unfold checksum
  by_cases h : offset + length ≤ bytes.length
  · exact .inl ⟨h, by rw [if_pos ((rangeInside_iff ..).mpr h)]; rfl⟩
  · exact .inr ⟨by omega, by rw [if_neg (by rw [rangeInside_iff]; exact h)]⟩

/-- A step of the machine, said once: nothing is issued and nothing happens, or the next issue is taken and either its
instruction is carried out or it stands for none. -/
theorem step_cases {s t : State} (h : step s = .next t) :
    (s.pending = [] ∧ t = s) ∨
      ∃ issue rest, s.pending = issue :: rest ∧
        ((∃ i, decode issue.line = .ok i ∧ exec i { s with pending := rest, draw := issue.draw } = .next t) ∨
          ∃ selector, decode issue.line = .error (.illegalOp selector) ∧
            t = ({ s with pending := rest, draw := issue.draw } : State).raise .host (.illegalOp selector)) := by
  unfold step at h
  split at h
  · rename_i hn
    refine .inl ⟨?_, by cases h; rfl⟩
    unfold State.takeIssue at hn
    split at hn
    · assumption
    · cases hn
  · rename_i line u hs
    obtain ⟨issue, rest, hp, rfl, rfl⟩ := State.takeIssue_some hs
    refine .inr ⟨issue, rest, hp, ?_⟩
    split at h
    · rename_i i hd
      exact .inl ⟨i, hd, h⟩
    · rename_i why hd
      cases why <;> simp only [rejectLine, reduceCtorEq] at h
      rename_i selector
      cases h
      exact .inr ⟨selector, hd, rfl⟩

end Sys2Proof.Machine
end

