-- ==== Sys2Proof/Laws/PerInstr.lean ====
section
/-! SUPPORT. Family `TableRow`: the coded form of every instruction matches its row of spec/opcode_table.json, by the
row's own `match` and `mask` (transcribed here byte for byte, in wire order). -/

namespace Sys2Proof.Laws.TableRow

open Sys2Proof Sys2Proof.Machine

/-- `match` and `mask` of an instruction's row in the opcode table. -/
def row : Instr → List Byte × List Byte
  | .crcInit => ([0x10#8], [0xFF#8])
  | .crcUpd _ => ([0x11#8], [0xFF#8])
  | .crcRd => ([0x12#8], [0xFF#8])
  | .crcRdle => ([0x13#8], [0xFF#8])
  | .crcSum _ _ _ => ([0x14#8], [0xFF#8])
  | .crcSumle _ _ _ => ([0x15#8], [0xFF#8])
  | .pack _ _ => ([0x20#8], [0xFF#8])
  | .feed _ => ([0x30#8], [0xFF#8])
  | .openLink _ => ([0x40#8], [0xFF#8])
  | .write _ => ([0x41#8], [0xFF#8])
  | .close => ([0x42#8], [0xFF#8])
  | .dispatch _ => ([0x50#8], [0xFF#8])
  | .rxData _ => ([0x80#8], [0xFF#8])
  | .rxIdle => ([0x81#8], [0xFF#8])
  | .rxErr => ([0x82#8], [0xFF#8])
  | .rxfPrefix _ _ => ([0xEF#8, 0x01#8, 0x00#8, 0x00#8], [0xFF#8, 0xFF#8, 0x00#8, 0x00#8])
  | .cmdf0 => (wireBytes 10 0xEF01000A000000000024, List.replicate 10 0xFF#8)
  | .cmdf1 => (wireBytes 10 0xEF01000A00000001C1E4, List.replicate 10 0xFF#8)
  | .cmdf2 => (wireBytes 10 0xEF01000A0000000281E5, List.replicate 10 0xFF#8)
  | .cmdf3 => (wireBytes 10 0xEF01000A000000034025, List.replicate 10 0xFF#8)
  | .sensPrefix _ _ _ => ([0x10#8, 0x00#8, 0x00#8, 0x00#8], [0xFF#8, 0x00#8, 0x00#8, 0x00#8])

/-- The code byte of a request or an agent step, the bytes of a wire pattern. -/
def codeBytes : Line → List Byte
  | .request selector _ => [selector]
  | .agentStep label _ => [label]
  | .wire _ bytes => bytes

/-- The coded form, under the row's mask, is the row's match. -/
abbrev Statement (i : Instr) : Prop :=
  List.zipWith (· &&& ·) (codeBytes (encode i)) (row i).2 = (row i).1

theorem crcInit : Statement .crcInit := by decide
theorem crcUpd (b : Byte) : Statement (.crcUpd b) := by simp [Statement, encode, codeBytes, row]
theorem crcRd : Statement .crcRd := by decide
theorem crcRdle : Statement .crcRdle := by decide
theorem crcSum (bytes : List Byte) (offset length : Nat) : Statement (.crcSum bytes offset length) := by
  simp [Statement, encode, codeBytes, row]
theorem crcSumle (bytes : List Byte) (offset length : Nat) : Statement (.crcSumle bytes offset length) := by
  simp [Statement, encode, codeBytes, row]
theorem pack (shape : FrameShape) (payload : List Byte) : Statement (.pack shape payload) := by
  simp [Statement, encode, codeBytes, row]
theorem feed (chunk : List Byte) : Statement (.feed chunk) := by simp [Statement, encode, codeBytes, row]
theorem openLink (config : LinkConfig) : Statement (.openLink config) := by simp [Statement, encode, codeBytes, row]
theorem write (bytes : List Byte) : Statement (.write bytes) := by simp [Statement, encode, codeBytes, row]
theorem close : Statement .close := by decide
theorem dispatch (payload : List Byte) : Statement (.dispatch payload) := by simp [Statement, encode, codeBytes, row]
theorem rxData (chunk : List Byte) : Statement (.rxData chunk) := by simp [Statement, encode, codeBytes, row]
theorem rxIdle : Statement .rxIdle := by decide
theorem rxErr : Statement .rxErr := by decide
theorem rxfPrefix (totalLen : U16) (rest : List Byte) : Statement (.rxfPrefix totalLen rest) := by
  simp [Statement, encode, codeBytes, row, rxfBytes, rxMarker, be16Bytes, Config.markerHi, Config.markerLo]
theorem cmdf0 : Statement .cmdf0 := by decide
theorem cmdf1 : Statement .cmdf1 := by decide
theorem cmdf2 : Statement .cmdf2 := by decide
theorem cmdf3 : Statement .cmdf3 := by decide
theorem sensPrefix (unread : Byte) (raw : U16) (rest : List Byte) : Statement (.sensPrefix unread raw rest) := by
  simp [Statement, encode, codeBytes, row, sensBytes, be16Bytes, Config.sensorCmd]

end Sys2Proof.Laws.TableRow
end

