-- ==== Sys2Proof/Machine/Listing.lean ====
section
/-! DEFINITION. The textual notation of spec/30_encoding.md section 6 (R80 to R84): how an operation is written in a
listing. It has no part in a step. -/

namespace Sys2Proof.Machine

/-- The mnemonic of an instruction's row in the opcode table. -/
def mnemonic : Instr → String
  | .crcInit => "CRC.INIT"
  | .crcUpd _ => "CRC.UPD"
  | .crcRd => "CRC.RD"
  | .crcRdle => "CRC.RDLE"
  | .crcSum _ _ _ => "CRC.SUM"
  | .crcSumle _ _ _ => "CRC.SUMLE"
  | .pack _ _ => "PACK"
  | .feed _ => "FEED"
  | .openLink _ => "OPEN"
  | .write _ => "WRITE"
  | .close => "CLOSE"
  | .dispatch _ => "DISPATCH"
  | .rxData _ => "RX.DATA"
  | .rxIdle => "RX.IDLE"
  | .rxErr => "RX.ERR"
  | .rxfPrefix _ _ => "RXF.PREFIX"
  | .cmdf0 => "CMDF.0"
  | .cmdf1 => "CMDF.1"
  | .cmdf2 => "CMDF.2"
  | .cmdf3 => "CMDF.3"
  | .sensPrefix _ _ _ => "SENS.PREFIX"

/-- One hexadecimal digit, in capitals. -/
def hexDigit (n : Nat) : Char := if n < 10 then Char.ofNat (48 + n) else Char.ofNat (55 + n)

/-- A byte as two hexadecimal digits. -/
def hexByte (b : Byte) : String := String.ofList [hexDigit (b.toNat / 16), hexDigit (b.toNat % 16)]

/-- "Space-separated two-digit hexadecimal bytes in brackets" (R80). -/
def listBytes (s : List Byte) : String := "[" ++ String.intercalate " " (s.map hexByte) ++ "]"

/-- A `FrameShape` as R80 writes it, between braces (characters 123 and 125). -/
def listShape (shape : FrameShape) : String :=
  String.singleton (Char.ofNat 123) ++ "hdr=" ++ listBytes shape.header
    ++ ", len=" ++ (if shape.useLength then "1" else "0")
    ++ ", crc=" ++ (if shape.useChecksum then "1" else "0")
    ++ ", trl=" ++ listBytes shape.trailer ++ String.singleton (Char.ofNat 125)

/-- An operation as a line of a listing (R80). A step of the receive loop has its agent in front; a wire row is written as
the operation whose rule its row cites (R82, R130, R190). -/
def listing : Instr → String
  | .crcInit => "CRC.INIT"
  | .crcUpd b => "CRC.UPD 0x" ++ hexByte b
  | .crcRd => "CRC.RD"
  | .crcRdle => "CRC.RDLE"
  | .crcSum bytes offset length => "CRC.SUM " ++ listBytes bytes ++ ", " ++ toString offset ++ ", " ++ toString length
  | .crcSumle bytes offset length =>
    "CRC.SUMLE " ++ listBytes bytes ++ ", " ++ toString offset ++ ", " ++ toString length
  | .pack shape payload => "PACK " ++ listShape shape ++ ", " ++ listBytes payload
  | .feed chunk => "FEED " ++ listBytes chunk
  | .openLink config => "OPEN cfg" ++ toString config.token
  | .write bytes => "WRITE " ++ listBytes bytes
  | .close => "CLOSE"
  | .dispatch payload => "DISPATCH " ++ listBytes payload
  | .rxData chunk => "RXLOOP: RX.DATA " ++ listBytes chunk
  | .rxIdle => "RXLOOP: RX.IDLE"
  | .rxErr => "RXLOOP: RX.ERR"
  | .rxfPrefix totalLen rest => "FEED " ++ listBytes (rxfBytes totalLen rest)
  | .cmdf0 => "CMD.OUT 0"
  | .cmdf1 => "CMD.OUT 1"
  | .cmdf2 => "CMD.OUT 2"
  | .cmdf3 => "CMD.OUT 3"
  | .sensPrefix unread raw rest => "DISPATCH " ++ listBytes (sensBytes unread raw rest)

end Sys2Proof.Machine
end

