-- ==== Sys2Proof/Tests/Slice0.lean ====
section
/-! SUPPORT. Tests with expected values from spec/95_test_vectors.md (V-..) or the worked example of the rule named, the
well-formedness smoke test, decoding of words written out from the opcode table, and a witness for the hypotheses of every
obligation that has some. -/

namespace Sys2Proof.Tests

open Sys2Proof Sys2Proof.Machine

/-- The next state of an outcome, if it is one. -/
def nextOf : Outcome → Option State
  | .next t => some t
  | .fault _ => none
  | .refused _ => none

theorem eq_next {o : Outcome} {t : State} (h : nextOf o = some t) : o = .next t := by
  cases o <;> simp_all [nextOf]

/-- Reset, with a known value for each parameter that has no default. -/
def base : State := { State.reset with params := { Params.default with scratchSize := 1024, readTimeout := 100, writeTimeout := 100 } }

/-- `base` with an open link. -/
def online : State := { base with link := .opened }

/-- `online` with an environment that draws failure, and `k = 2` for a `WRITE`. -/
def failing : State := { online with draw := { ok := false, taken := 2, gap := 0 } }

/-- The last result of an operation. -/
def resultOf (o : Outcome) : Option Result := ((nextOf o).bind (·.resOut.getLast?)).map Response.result

/-- The frames `F10` and `A7` of spec/95_test_vectors.md. -/
def f10 : List Byte := [0xEF#8, 0x01#8, 0x00#8, 0x0A#8, 0x10#8, 0x00#8, 0x0F#8, 0xA0#8, 0x01#8, 0x6C#8]
@[inherit_doc f10]
def a7 : List Byte := [0xEF#8, 0x01#8, 0x00#8, 0x07#8, 0x41#8, 0x7F#8, 0x70#8]

/-- The payload of `F10`. -/
def p10 : List Byte := [0x10#8, 0x00#8, 0x0F#8, 0xA0#8]

/-- The bytes `i mod 256` for `i = 0 .. 1017` (V-P12). -/
def longest : List Byte := (List.range 1018).map (BitVec.ofNat 8)

theorem longest_length : longest.length = 1018 := by rw [longest, List.length_map, List.length_range]

/-! ### Well-formedness and decoding -/

/-- R172: `1 ≤ len(chunk)`. The check has one case, and the decoder refuses the same term. -/
theorem test_wellFormed_refuses_empty_chunk :
    WellFormed (.rxData []) = false ∧ WellFormed (.rxData [0x00#8]) = true
      ∧ decode (.agentStep 0x80#8 []) = .error .emptyChunk := by decide

/-- The selectors of R71, in binary, each with an operand. -/
theorem test_decode_checksum_codec :
    decode (.request 0b00010000#8 {}) = .ok .crcInit
      ∧ decode (.request 0b00010001#8 { b := 0x41#8 }) = .ok (.crcUpd 0x41#8)
      ∧ decode (.request 0b00010010#8 {}) = .ok .crcRd
      ∧ decode (.request 0b00010011#8 {}) = .ok .crcRdle
      ∧ decode (.request 0b00010100#8 { bytes := [0xAA#8, 0xBB#8], offset := 1, length := 0 })
          = .ok (.crcSum [0xAA#8, 0xBB#8] 1 0)
      ∧ decode (.request 0b00010101#8 { bytes := [0xAA#8], offset := 0, length := 1 })
          = .ok (.crcSumle [0xAA#8] 0 1) := by decide +kernel

theorem test_decode_other_requests :
    decode (.request 0b00100000#8 { shape := shapeFixed, payload := [0x41#8] }) = .ok (.pack shapeFixed [0x41#8])
      ∧ decode (.request 0b00110000#8 { chunk := [0xEF#8] }) = .ok (.feed [0xEF#8])
      ∧ decode (.request 0b01000000#8 { config := ⟨7⟩ }) = .ok (.openLink ⟨7⟩)
      ∧ decode (.request 0b01000001#8 { bytes := [0x01#8] }) = .ok (.write [0x01#8])
      ∧ decode (.request 0b01000010#8 {}) = .ok .close
      ∧ decode (.request 0b01010000#8 { payload := [0x10#8] }) = .ok (.dispatch [0x10#8]) := by decide +kernel

/-- R72: the labels of the receive loop. -/
theorem test_decode_agent_steps :
    decode (.agentStep 0b10000000#8 [0xEF#8, 0x01#8]) = .ok (.rxData [0xEF#8, 0x01#8])
      ∧ decode (.agentStep 0b10000001#8 []) = .ok .rxIdle ∧ decode (.agentStep 0b10000010#8 []) = .ok .rxErr
      ∧ decode (.agentStep 0x83#8 []) = .error (.noSuchAgentStep 0x83#8) := by decide +kernel

/-- R62, R63, R64, R73: the wire rows, byte for byte. -/
theorem test_decode_wire_rows :
    decode (.wire .rxf [0xEF#8, 0x01#8, 0x01#8, 0x02#8, 0x33#8]) = .ok (.rxfPrefix 0x0102#16 [0x33#8])
      ∧ decode (.wire .cmdf [0xEF#8, 0x01#8, 0x00#8, 0x0A#8, 0x00#8, 0x00#8, 0x00#8, 0x00#8, 0x00#8, 0x24#8]) = .ok .cmdf0
      ∧ decode (.wire .cmdf [0xEF#8, 0x01#8, 0x00#8, 0x0A#8, 0x00#8, 0x00#8, 0x00#8, 0x01#8, 0xC1#8, 0xE4#8]) = .ok .cmdf1
      ∧ decode (.wire .cmdf [0xEF#8, 0x01#8, 0x00#8, 0x0A#8, 0x00#8, 0x00#8, 0x00#8, 0x02#8, 0x81#8, 0xE5#8]) = .ok .cmdf2
      ∧ decode (.wire .cmdf [0xEF#8, 0x01#8, 0x00#8, 0x0A#8, 0x00#8, 0x00#8, 0x00#8, 0x03#8, 0x40#8, 0x25#8]) = .ok .cmdf3
      ∧ decode (.wire .sens [0x10#8, 0x55#8, 0x0F#8, 0xA0#8, 0x66#8]) = .ok (.sensPrefix 0x55#8 4000#16 [0x66#8])
      ∧ decode (.wire .rxf [0x01#8, 0xEF#8, 0x00#8, 0x0A#8]) = .error (.noSuchWirePattern .rxf)
      ∧ decode (.wire .sens [0x11#8, 0x00#8, 0x0F#8, 0xA0#8]) = .error (.noSuchWirePattern .sens) := by decide +kernel

/-- R74: what is not in R71 is illegal as a request, the labels of R72 included. -/
theorem test_decode_illegal_selectors :
    decode (.request 0x00#8 {}) = .error (.illegalOp 0x00#8) ∧ decode (.request 0x16#8 {}) = .error (.illegalOp 0x16#8)
      ∧ decode (.request 0x80#8 { chunk := [0x01#8] }) = .error (.illegalOp 0x80#8) := by decide +kernel

/-- The host's question, asked here for one row of each format: the first step runs exactly the row's instruction. -/
theorem test_first_step_runs_the_table_word :
    ((nextOf (step (base.withFetchWord 8 0x13))).map fun t => t.resOut.map Response.result)
        = some [.bytes [0xFF#8, 0xFF#8]]
      ∧ ((nextOf (step (base.withFetchWord 8 0x82))).map (·.diagOut)) = some [.transientReadError]
      ∧ ((nextOf (step (base.withFetchWord 80 0xEF01000A00000001C1E4))).map fun t => t.resOut.map Response.result)
        = some [.bytes cmdf1Bytes] := by decide +kernel

/-! ### The Checksum Codec -/

/-- V-K1 and R94's worked example. -/
theorem test_crcInit : (nextOf (execCrcInit { base with crcAcc := 0x1234#16 })).map (·.crcAcc) = some 0xFFFF#16 := by
  decide +kernel

/-- V-K20, V-K5. -/
theorem test_crcUpd :
    (nextOf (execCrcUpd 0x00#8 base)).map (·.crcAcc) = some 0x40BF#16
      ∧ (nextOf (execCrcUpd 0x41#8 base)).map (·.crcAcc) = some 0x707F#16 := by decide +kernel

/-- R96: reading leaves the accumulator. -/
theorem test_crcRd :
    resultOf (execCrcRd { base with crcAcc := 0x40BF#16 }) = some (.word 0x40BF#16)
      ∧ (nextOf (execCrcRd { base with crcAcc := 0x40BF#16 })).map (·.crcAcc) = some 0x40BF#16 := by decide +kernel

/-- R97's worked example. -/
theorem test_crcRdle : resultOf (execCrcRdle { base with crcAcc := 0x6C01#16 }) = some (.bytes [0x01#8, 0x6C#8]) := by
  decide +kernel

/-- V-K24, and R98's refusal just past the end. -/
theorem test_crcSum :
    resultOf (execCrcSum ([0xAA#8] ++ p10 ++ [0xBB#8]) 1 4 base) = some (.word 0x6C01#16)
      ∧ resultOf (execCrcSum [0xAA#8, 0x01#8] 1 2 base) = some (.error .operandRefused)
      ∧ resultOf (execCrcSum [0xAA#8, 0x01#8] 2 0 base) = some (.word 0xFFFF#16) := by decide +kernel

/-- V-K24, V-K8. -/
theorem test_crcSumle :
    resultOf (execCrcSumle ([0xAA#8] ++ p10 ++ [0xBB#8]) 1 4 base) = some (.bytes [0x01#8, 0x6C#8])
      ∧ resultOf (execCrcSumle [0x00#8, 0x00#8, 0x00#8, 0x00#8] 0 4 base) = some (.bytes [0x00#8, 0x24#8]) := by
  decide +kernel

/-- V-K14, V-K16, V-K13, V-K19. -/
theorem test_checksum_values :
    crc16 [0x31#8, 0x32#8, 0x33#8, 0x34#8, 0x35#8, 0x36#8, 0x37#8, 0x38#8, 0x39#8] = 0x4B37#16
      ∧ crc16 [0x10#8, 0xFF#8, 0xFF#8, 0xFF#8] = 0x6435#16 ∧ crc16 [0x10#8, 0x01#8, 0x0F#8, 0xA0#8] = 0xAC50#16
      ∧ crc16 (p10 ++ [0x01#8, 0x6C#8]) = 0x0000#16 := by decide +kernel

/-- V-K17: every byte value once. -/
theorem test_checksum_of_every_byte : crc16 ((List.range 256).map (BitVec.ofNat 8)) = 0xDE6C#16 := by decide +kernel

/-! ### The Frame Serializer -/

/-- V-P1, V-P3, V-P4, V-P5, V-P6. -/
theorem test_pack :
    resultOf (execPack shapeFixed p10 base) = some (.bytes f10)
      ∧ resultOf (execPack shapeFixed [] base) = some (.bytes [0xEF#8, 0x01#8, 0x00#8, 0x06#8, 0xFF#8, 0xFF#8])
      ∧ resultOf (execPack ⟨[0xAA#8, 0x55#8, 0x7E#8], true, true, [0x0D#8, 0x0A#8]⟩ [0x01#8, 0x02#8, 0x03#8] base)
          = some (.bytes [0xAA#8, 0x55#8, 0x7E#8, 0x00#8, 0x0C#8, 0x01#8, 0x02#8, 0x03#8, 0x61#8, 0x61#8, 0x0D#8, 0x0A#8])
      ∧ resultOf (execPack ⟨[0xAA#8], false, true, [0x0D#8, 0x0A#8]⟩ [0x01#8, 0x02#8, 0x03#8] base)
          = some (.bytes [0xAA#8, 0x01#8, 0x02#8, 0x03#8, 0x61#8, 0x61#8, 0x0D#8, 0x0A#8])
      ∧ resultOf (execPack ⟨[0xAA#8], true, false, [0x0D#8, 0x0A#8]⟩ [0x01#8, 0x02#8, 0x03#8] base)
          = some (.bytes [0xAA#8, 0x00#8, 0x08#8, 0x01#8, 0x02#8, 0x03#8, 0x0D#8, 0x0A#8]) := by decide +kernel

/-- V-P14 and V-P15: the greatest total a length field holds, and the next one. -/
theorem test_pack_length_limit :
    FrameLength.total shapeFixed (List.replicate 65529 0x00#8) = 65535
      ∧ packFrame Params.default shapeFixed (List.replicate 65530 0x00#8) = none := by
  have h : ∀ n, FrameLength.total shapeFixed (List.replicate n 0x00#8) = 2 + 2 + n + 2 + 0 := by
    intro n
    rw [FrameLength.total, List.length_replicate]
    rfl
  refine ⟨h _, ?_⟩
  unfold packFrame
  rw [h]
  rfl

/-! ### The Frame Stream Parser -/

/-- V-F2: three chunks. -/
theorem test_feed_in_chunks :
    (nextOf (execAll [.feed [0xEF#8, 0x01#8, 0x00#8], .feed [0x0A#8, 0x10#8, 0x00#8, 0x0F#8, 0xA0#8],
        .feed [0x01#8, 0x6C#8]] base)).map (fun t => (t.evtOut, t.rxbuf)) = some ([.validatedPayload p10], [])
      ∧ (nextOf (execFeed [0xEF#8, 0x01#8, 0x00#8] base)).map (·.rxbuf) = some [0xEF#8, 0x01#8, 0x00#8] := by
  decide +kernel

/-- V-F6 (one byte, not two), V-F7 (a bad checksum, then a good frame), V-F10 (a false marker in garbage), V-F18 (a marker
inside a payload). -/
theorem test_feed_events :
    resultOf (execFeed (0xEF#8 :: 0x01#8 :: f10) base) = some (.events [.validatedPayload p10])
      ∧ resultOf (execFeed ([0xEF#8, 0x01#8, 0x00#8, 0x0A#8, 0x10#8, 0x01#8, 0x0F#8, 0xA0#8, 0x01#8, 0x6C#8] ++ a7) base)
          = some (.events [.checksumMismatch, .validatedPayload [0x41#8]])
      ∧ resultOf (execFeed ([0xEF#8, 0x01#8, 0x00#8, 0x08#8] ++ f10) base) = some (.events [.checksumMismatch])
      ∧ resultOf (execFeed [0xEF#8, 0x01#8, 0x00#8, 0x0A#8, 0xEF#8, 0x01#8, 0x00#8, 0x06#8, 0xE5#8, 0x32#8] base)
          = some (.events [.validatedPayload [0xEF#8, 0x01#8, 0x00#8, 0x06#8]]) := by decide +kernel

/-- V-F4, V-F5, V-F13: the bounds of the length field, and R139 with `LOG_INVALID_LENGTH` for the length 1025. -/
theorem test_feed_lengths :
    lengthLegal 5#16 = false ∧ lengthLegal 6#16 = true ∧ lengthLegal 1024#16 = true ∧ lengthLegal 1025#16 = false
      ∧ (nextOf (execFeed [0xEF#8, 0x01#8, 0x04#8, 0x01#8, 0xAA#8, 0xBB#8]
          { base with params := { base.params with logInvalidLength := true } })).map
            (fun t => (t.diagOut, t.rxbuf)) = some ([.invalidLength 1025#16], []) := by decide +kernel

/-! ### The Transport Channel -/

/-- V-T2, V-T3: success, and a failure that leaves even a prior session closed. -/
theorem test_openLink :
    (nextOf (execOpen ⟨0⟩ base)).map (·.link) = some .opened
      ∧ (nextOf (execOpen ⟨1⟩ failing)).map (·.link) = some .closed
      ∧ resultOf (execOpen ⟨1⟩ failing) = some (.error .linkOpenError) := by decide +kernel

/-- V-T1, V-T4, V-T5. -/
theorem test_write :
    resultOf (execWrite [0x00#8] base) = some (.error .notConnectedError)
      ∧ (nextOf (execWrite cmdf1Bytes online)).map (·.txStream) = some cmdf1Bytes
      ∧ (nextOf (execWrite [0x01#8, 0x02#8, 0x03#8, 0x04#8] failing)).map (fun t => (t.txStream, t.link))
          = some ([0x01#8, 0x02#8], .opened)
      ∧ resultOf (execWrite [0x01#8, 0x02#8, 0x03#8, 0x04#8] failing) = some (.error .linkWriteError) := by decide +kernel

/-- V-T7. -/
theorem test_close :
    (nextOf (execClose online)).map (·.link) = some .closed ∧ resultOf (execClose base) = some .ok
      ∧ execAll [.close, .rxData [0x01#8]] online = .fault (.rxStepNotEnabled 0x80#8) := ⟨by decide, by decide, rfl⟩

/-- R172's worked example, and V-T8. -/
theorem test_rxData :
    (nextOf (execRxData f10 online)).map (fun t => (t.rxStream, t.evtOut, t.rxbuf))
        = some (f10, [.validatedPayload p10], [])
      ∧ execRxData [0x01#8] base = .fault (.rxStepNotEnabled 0x80#8)
      ∧ execRxData [0x01#8, 0x02#8, 0x03#8] { online with params := { base.params with scratchSize := 2 } }
          = .fault .rxChunkOutOfRange :=
  ⟨by decide +kernel, rfl, rfl⟩

/-- R173. -/
theorem test_rxIdle : execRxIdle online = .next online ∧ execRxIdle base = .fault (.rxStepNotEnabled 0x81#8) := ⟨rfl, rfl⟩

/-- V-T6. -/
theorem test_rxErr :
    (nextOf (execAll [.rxErr, .rxErr, .rxErr] online)).map (fun t => (t.diagOut, t.link))
      = some (List.replicate 3 .transientReadError, .opened) := by decide +kernel

/-! ### The Frame Dispatcher -/

/-- V-D1, V-D3, V-D4, V-D6. -/
theorem test_dispatch_readings :
    resultOf (execDispatch p10 base) = some (.domain (some (.sensorReading 4000#16 (880 / 273))))
      ∧ resultOf (execDispatch [0x10#8, 0x00#8, 0x0F#8, 0xFF#8] base) = some (.domain (some (.sensorReading 4095#16 (33 / 10))))
      ∧ resultOf (execDispatch [0x10#8, 0xFF#8, 0xFF#8, 0xFF#8] base)
          = some (.domain (some (.sensorReading 65535#16 (48059 / 910))))
      ∧ resultOf (execDispatch [0x10#8, 0xAA#8, 0x0F#8, 0xA0#8, 0x55#8, 0x66#8] base)
          = some (.domain (some (.sensorReading 4000#16 (880 / 273)))) := by decide +kernel

/-- V-D7, V-D9, V-D10. -/
theorem test_dispatch_ignores :
    resultOf (execDispatch [0x10#8, 0x00#8, 0x0F#8] base) = some (.domain none)
      ∧ resultOf (execDispatch [0x41#8] base) = some (.domain none)
      ∧ resultOf (execDispatch [0x00#8, 0x00#8, 0x00#8, 0x01#8] base) = some (.domain none) := by decide +kernel

/-! ### The wire rows -/

/-- R62: the prefix of `F10` and its rest. -/
theorem test_rxfPrefix :
    resultOf (execRxfPrefix 10#16 (p10 ++ [0x01#8, 0x6C#8]) base) = some (.events [.validatedPayload p10])
      ∧ (nextOf (execRxfPrefix 10#16 [] base)).map (·.rxbuf) = some [0xEF#8, 0x01#8, 0x00#8, 0x0A#8] := by decide +kernel

/-- V-S5, V-K8 to V-K11: the four frames. -/
theorem test_cmdf_frames :
    resultOf (execCmdf0 base) = some (.bytes [0xEF#8, 0x01#8, 0x00#8, 0x0A#8, 0x00#8, 0x00#8, 0x00#8, 0x00#8, 0x00#8, 0x24#8])
      ∧ resultOf (execCmdf1 base)
          = some (.bytes [0xEF#8, 0x01#8, 0x00#8, 0x0A#8, 0x00#8, 0x00#8, 0x00#8, 0x01#8, 0xC1#8, 0xE4#8])
      ∧ resultOf (execCmdf2 base)
          = some (.bytes [0xEF#8, 0x01#8, 0x00#8, 0x0A#8, 0x00#8, 0x00#8, 0x00#8, 0x02#8, 0x81#8, 0xE5#8])
      ∧ resultOf (execCmdf3 base)
          = some (.bytes [0xEF#8, 0x01#8, 0x00#8, 0x0A#8, 0x00#8, 0x00#8, 0x00#8, 0x03#8, 0x40#8, 0x25#8]) := by decide +kernel

/-- R82: the `WRITE` follows and puts the frame on the link. -/
theorem test_cmdf_write_follows :
    ((nextOf (execCmdf1 online)).bind fun t => nextOf (step t)).map (·.txStream) = some cmdf1Bytes := by decide +kernel

/-- V-D6 as a wire pattern. -/
theorem test_sensPrefix :
    resultOf (execSensPrefix 0xAA#8 4000#16 [0x55#8, 0x66#8] base)
      = some (.domain (some (.sensorReading 4000#16 (880 / 273)))) := by decide +kernel

/-! ### The listing notation -/

/-- R80's forms. -/
theorem test_listing :
    listing (.crcUpd 0x0A#8) = "CRC.UPD 0x0A" ∧ listing (.feed [0xEF#8, 0x01#8]) = "FEED [EF 01]"
      ∧ listing .rxErr = "RXLOOP: RX.ERR" := by decide +kernel

/-! ### Witnesses: a state and operands that meet the hypotheses of a statement, one for each of its clauses -/

/-- `base` with one issued step. -/
def issuing (line : Line) (s : State) : State := s.issueNext line

/-- `EveryStepKeepsTheInvariant`, `TracesOnlyGrow`, `DomOutFollowsEvtOut`: a `FEED` issued in a state of the invariant. -/
theorem witness_step :
    Inv (issuing (.request 0x30#8 { chunk := f10 }) base)
      ∧ step (issuing (.request 0x30#8 { chunk := f10 }) base)
        = .next { base with
            evtOut := [.validatedPayload p10], resOut := [⟨.host, .events [.validatedPayload p10]⟩] } :=
  ⟨⟨rfl, rfl, rfl, rfl, by decide⟩, eq_next (by decide +kernel)⟩

/-- `CrcRdleReturnsTheLowByteFirst`, third clause. -/
theorem witness_crcRdle : ({ base with crcAcc := 0x6C01#16 } : State).crcAcc = 0x6C01#16 := rfl

/-- `CrcSumChecksumsTheRange`, `CrcSumleChecksumsTheRange`: the last range that lies in the sequence, and the next one. -/
theorem witness_range : 1 + 1 ≤ [0xAA#8, 0xBB#8].length ∧ [0xAA#8, 0xBB#8].length < 1 + 2 := by decide

/-- `SingleBitFlipChangesTheChecksum`: the lowest and the highest bit. -/
theorem witness_bit : 0 < 8 ∧ 7 < 8 := by decide

/-- `base` with small capacities. -/
def tight : State := { base with params := { base.params with hdrMax := some 2, trlMax := some 0, payloadMax := some 1 } }

/-- `PackEmitsTheFieldsOrIsRefused`, refused: a header, a trailer, a payload one byte over its capacity, and a total of
65536 (V-P15). -/
theorem witness_pack_refused :
    (tight.params.hdrMax = some 2 ∧ 2 < [0xAA#8, 0x55#8, 0x7E#8].length)
      ∧ (tight.params.trlMax = some 0 ∧ 0 < [0x0D#8].length)
      ∧ (tight.params.payloadMax = some 1 ∧ 1 < [0x01#8, 0x02#8].length)
      ∧ (shapeFixed.useLength = true ∧ 0xFFFF < shapeFixed.header.length + 2 + (List.replicate 65530 0x00#8).length
          + (if shapeFixed.useChecksum = true then 2 else 0) + shapeFixed.trailer.length) := by
  rw [List.length_replicate]
  decide

/-- `PackEmitsTheFieldsOrIsRefused`, emitted: every operand exactly at its capacity. -/
theorem witness_pack_emitted :
    (∀ m, tight.params.hdrMax = some m → shapeFixed.header.length ≤ m)
      ∧ (∀ m, tight.params.trlMax = some m → shapeFixed.trailer.length ≤ m)
      ∧ (∀ m, tight.params.payloadMax = some m → [0x41#8].length ≤ m)
      ∧ (shapeFixed.useLength = true → shapeFixed.header.length + 2 + [0x41#8].length
          + (if shapeFixed.useChecksum = true then 2 else 0) + shapeFixed.trailer.length ≤ 0xFFFF) := by
  refine ⟨?_, ?_, ?_, by decide⟩ <;> rintro m h <;> cases h <;> decide

/-- `PackedFieldsStandAtTheirOffsets`, `PackedLengthFieldIsTheFrameLength`: a frame with both fields, and one with none. -/
theorem witness_packed :
    packFrame base.params shapeFixed [0x41#8] = some a7
      ∧ packFrame base.params ⟨[0xAA#8], false, false, []⟩ [0x01#8, 0x02#8] = some [0xAA#8, 0x01#8, 0x02#8] := by
  decide +kernel

/-- With no capacity limit, a fixed-shape frame that fits its length field is packed. -/
theorem packFrame_fits (payload : List Byte) (h : payload.length + 6 ≤ 65535) :
    packFrame base.params shapeFixed payload = some (frameBytes shapeFixed payload) := by
  refine (packFrame_some_iff ..).mpr ⟨rfl, fun _ => ?_, rfl⟩
  simp only [FrameLength.total, FrameLength.checksumField, shapeFixed, rxMarker, Config.lenFieldMax, if_true,
    List.length_cons, List.length_nil]
  omega

/-- `PackThenFeedRecoversThePayload`: payloads of 1 and of 1018 bytes. -/
theorem witness_receivable :
    packFrame base.params shapeFixed [0x41#8] = some a7 ∧ base.rxbuf = [] ∧ 1 ≤ [0x41#8].length
      ∧ packFrame base.params shapeFixed longest = some (frameBytes shapeFixed longest) ∧ longest.length = 1018 :=
  ⟨by decide +kernel, rfl, by decide, packFrame_fits _ (by rw [longest_length]; decide), longest_length⟩

/-- `UnreceivablePayloadsAreNotDelivered`: payloads of no byte and of 1019. -/
theorem witness_unreceivable :
    packFrame base.params shapeFixed [] = some [0xEF#8, 0x01#8, 0x00#8, 0x06#8, 0xFF#8, 0xFF#8] ∧ base.rxbuf = []
      ∧ packFrame base.params shapeFixed (0x00#8 :: longest) = some (frameBytes shapeFixed (0x00#8 :: longest))
      ∧ (0x00#8 :: longest).length = 1019 :=
  ⟨by decide +kernel, rfl, packFrame_fits _ (by rw [List.length_cons, longest_length]; decide),
    by rw [List.length_cons, longest_length]⟩

/-- `NoMarkerDiscardsTheWholeBuffer`: a trailing `0xEF` (V-F11). -/
theorem witness_noMarker :
    ∀ j, ¬((base.rxbuf ++ [0x55#8, 0xEF#8])[j]? = some 0xEF#8 ∧ (base.rxbuf ++ [0x55#8, 0xEF#8])[j + 1]? = some 0x01#8)
  | 0 => by decide
  | 1 => by decide
  | j + 2 => by simp [base, State.reset]

/-- `MarkerSearchFindsTheFirstMarker`, `NoiseBeforeTheMarkerIsDropped`: a marker behind noise, and one at the front. -/
theorem witness_marker :
    find2 0xEF#8 0x01#8 (base.rxbuf ++ [0x00#8, 0xEF#8, 0xEF#8, 0x01#8]) = some 2
      ∧ find2 0xEF#8 0x01#8 (base.rxbuf ++ [0xEF#8, 0x01#8]) = some 0 := by decide

/-- A state whose buffer holds the bytes. -/
def holding (bytes : List Byte) : State := { base with rxbuf := bytes }

/-- `IncompleteCandidateWaits`: a bare marker, three bytes, and candidates one byte short of the least and of the greatest
length. -/
theorem witness_incomplete :
    (holding [0xEF#8]).rxbuf ++ [0x01#8] = 0xEF#8 :: 0x01#8 :: [] ∧ ([] : List Byte).length < 2
      ∧ (holding []).rxbuf ++ [0xEF#8, 0x01#8, 0x00#8] = 0xEF#8 :: 0x01#8 :: [0x00#8] ∧ [0x00#8].length < 2
      ∧ (holding [0xEF#8, 0x01#8, 0x00#8]).rxbuf ++ [0x06#8, 0xFF#8] = 0xEF#8 :: 0x01#8 :: [0x00#8, 0x06#8, 0xFF#8]
      ∧ 6 ≤ (0x00#8).toNat * 256 + (0x06#8).toNat ∧ (0x00#8).toNat * 256 + (0x06#8).toNat ≤ 1024
      ∧ [0x00#8, 0x06#8, 0xFF#8].length + 2 < (0x00#8).toNat * 256 + (0x06#8).toNat
      ∧ 6 ≤ (0x04#8).toNat * 256 + (0x00#8).toNat ∧ (0x04#8).toNat * 256 + (0x00#8).toNat ≤ 1024
      ∧ (0x04#8 :: 0x00#8 :: longest ++ [0xBC#8]).length + 2 < (0x04#8).toNat * 256 + (0x00#8).toNat := by
  refine ⟨by decide, by decide, by decide, by decide, by decide, by decide, by decide, by decide, by decide, by decide, ?_⟩
  rw [List.cons_append, List.cons_append, List.length_cons, List.length_cons, List.length_append, longest_length]
  decide

/-- `InvalidLengthDropsOneByte`: the lengths 5 and 1025. -/
theorem witness_invalidLength :
    (holding [0xEF#8, 0x01#8, 0x00#8]).rxbuf ++ [0x05#8, 0xAA#8] = 0xEF#8 :: 0x01#8 :: 0x00#8 :: 0x05#8 :: [0xAA#8]
      ∧ (0x00#8).toNat * 256 + (0x05#8).toNat < 6
      ∧ base.rxbuf ++ [0xEF#8, 0x01#8, 0x04#8, 0x01#8] = 0xEF#8 :: 0x01#8 :: 0x04#8 :: 0x01#8 :: []
      ∧ 1024 < (0x04#8).toNat * 256 + (0x01#8).toNat := by decide

/-- `EmptyPayloadFrameIsDiscardedSilently`: any checksum bytes, and a frame behind it. -/
theorem witness_emptyPayload :
    (holding [0xEF#8, 0x01#8, 0x00#8, 0x06#8]).rxbuf ++ (0x12#8 :: 0x34#8 :: a7)
      = 0xEF#8 :: 0x01#8 :: 0x00#8 :: 0x06#8 :: 0x12#8 :: 0x34#8 :: a7 := by decide

/-- `WholeFrameIsJudgedByItsChecksum`: checksums equal and different, and payloads of 1 and 1018 bytes. -/
theorem witness_wholeFrame :
    (holding [0xEF#8]).rxbuf ++ a7.tail = rxFrame [0x41#8] 0x707F#16 ++ [] ∧ crc16 [0x41#8] = 0x707F#16
      ∧ base.rxbuf ++ [0xEF#8, 0x01#8, 0x00#8, 0x07#8, 0x41#8, 0x7F#8, 0x71#8, 0xEF#8] = rxFrame [0x41#8] 0x717F#16 ++ [0xEF#8]
      ∧ crc16 [0x41#8] ≠ 0x717F#16
      ∧ base.rxbuf ++ (rxFrame longest 0x0000#16 ++ [0xEF#8]) = rxFrame longest 0x0000#16 ++ [0xEF#8]
      ∧ longest.length = 1018 :=
  ⟨by decide +kernel, by decide +kernel, by decide +kernel, by decide +kernel, rfl, longest_length⟩

/-- `EmptyChunkChangesNothing`: a buffer of each residual shape. -/
theorem witness_residual :
    residualShape (holding []).rxbuf = true ∧ residualShape (holding [0xEF#8, 0x01#8]).rxbuf = true
      ∧ residualShape (holding [0xEF#8, 0x01#8, 0x00#8]).rxbuf = true
      ∧ residualShape (holding [0xEF#8, 0x01#8, 0x00#8, 0x06#8, 0xFF#8]).rxbuf = true
      ∧ residualShape ([0xEF#8, 0x01#8, 0x04#8, 0x00#8] ++ longest ++ [0xBC#8]) = true := by
  refine ⟨rfl, rfl, rfl, rfl, ?_⟩
  simp [residualShape, longest_length, be16]

/-- `CleanCutsDoNotChangeTheEvents`: V-F2's chunks, and one cut after an `0xEF` that no `0x01` follows. -/
theorem witness_cleanCuts :
    [[0xEF#8, 0x01#8, 0x00#8], [0x0A#8, 0x10#8, 0x00#8, 0x0F#8, 0xA0#8], [0x01#8, 0x6C#8]] ≠ []
      ∧ cleanlyCut [[0xEF#8, 0x01#8, 0x00#8], [0x0A#8, 0x10#8, 0x00#8, 0x0F#8, 0xA0#8], [0x01#8, 0x6C#8]]
      ∧ cleanlyCut [[0x55#8, 0xEF#8], a7] := by simp [cleanlyCut, cleanCut, a7]

/-- `SplitMarkerLosesTheFrame`: V-F11. -/
theorem witness_splitMarker : base.rxbuf = [] ∧ markerFree (0x01#8 :: [0x00#8, 0x07#8, 0x41#8, 0x7F#8, 0x70#8]) :=
  ⟨rfl, rfl⟩

/-- `ParserResynchronisesPastGarbage`: garbage that ends in `0xEF` (V-F12), and payloads of 1 and 1018 bytes. -/
theorem witness_resync :
    base.rxbuf = [] ∧ markerFree [0x55#8, 0xEF#8] ∧ 1 ≤ [0x41#8].length ∧ [0x41#8].length ≤ 1018
      ∧ 1 ≤ longest.length ∧ longest.length ≤ 1018 := 
  ⟨rfl, rfl, by decide, by decide, by rw [longest_length]; decide, by rw [longest_length]⟩

/-- `BitFlipIsReportedAndParsingResumes`: bits 0 and 7, a payload of one byte and one of 1018. -/
theorem witness_bitFlip :
    base.rxbuf = [] ∧ 0 < 8 ∧ ([] : List Byte).length + 1 + ([] : List Byte).length ≤ 1018
      ∧ 7 < 8 ∧ (longest.take 1000).length + 1 + (longest.drop 1001).length = 1018 := by
  simp [base, State.reset, longest_length]

/-- `BackToBackFramesAreAllDelivered`: payloads of 1 and 1018 bytes. -/
theorem witness_backToBack :
    base.rxbuf = [] ∧ ∀ p ∈ [[0x41#8], longest], 1 ≤ p.length ∧ p.length ≤ 1018 := by
  simp [base, State.reset, longest_length]

/-- `OpenFollowsTheDraw`, `WriteFollowsTheLinkAndTheDraw`: every case of the link and the draw. -/
theorem witness_draws :
    base.link = .closed ∧ base.draw.ok = true ∧ failing.draw.ok = false ∧ online.link = .opened
      ∧ online.draw.ok = true ∧ failing.link = .opened := by decide

/-- `online` with a scratch buffer of two bytes. -/
def narrow : State := { online with params := { base.params with scratchSize := 2 } }

/-- `RxDataRecordsAndFeedsTheChunk`: chunks of 1 byte and of `SCRATCH_SIZE`; and the three ways a chunk is not allowed. -/
theorem witness_rxData :
    narrow.link = .opened ∧ 1 ≤ [0x00#8].length ∧ [0x00#8].length ≤ narrow.params.scratchSize
      ∧ [0x00#8, 0x01#8].length = narrow.params.scratchSize
      ∧ ¬(base.link = .opened ∧ 1 ≤ [0x00#8].length ∧ [0x00#8].length ≤ base.params.scratchSize)
      ∧ ¬(narrow.link = .opened ∧ 1 ≤ ([] : List Byte).length ∧ ([] : List Byte).length ≤ narrow.params.scratchSize)
      ∧ ¬(narrow.link = .opened ∧ 1 ≤ [0x00#8, 0x01#8, 0x02#8].length
          ∧ [0x00#8, 0x01#8, 0x02#8].length ≤ narrow.params.scratchSize) := by decide

/-- `ClosedLinkStopsTheReceiveLoop`: after a `CLOSE`, and after an `OPEN` that failed. -/
theorem witness_closed :
    exec .close online = .next { base with resOut := [⟨.host, .ok⟩] }
      ∧ failing.draw.ok = false
      ∧ exec (.openLink ⟨3⟩) failing
          = .next { base with draw := failing.draw, resOut := [⟨.host, .error .linkOpenError⟩] } := ⟨rfl, rfl, rfl⟩

/-- `DispatchReportsSensorReadingsOnly`: the exact number system; a payload of 3 bytes, and one with another code. -/
theorem witness_dispatch :
    base.params.numerics = .exact ∧ [0x10#8, 0x00#8, 0x0F#8].length < 4
      ∧ [0x11#8, 0x00#8, 0x0F#8, 0xA0#8].head? ≠ some 0x10#8 := by decide

/-- `SensorFrameGivesItsReading`. -/
theorem witness_sensorFrame :
    online.link = .opened ∧ online.rxbuf = [] ∧ 10 ≤ online.params.scratchSize ∧ online.params.numerics = .exact := by
  decide

/-- `EachElementHasItsOnlyWriters`: an instruction that writes nothing but the results, and one that writes the buffer. -/
theorem witness_exec :
    exec .crcRd base = .next { base with resOut := [⟨.host, .word 0xFFFF#16⟩] }
      ∧ exec (.feed [0xEF#8, 0x01#8]) base
          = .next { base with rxbuf := [0xEF#8, 0x01#8], resOut := [⟨.host, .events []⟩] } :=
  ⟨rfl, eq_next (by decide +kernel)⟩

/-- `IllegalSelectorIsRefused`: values at the edges of the legal ones, and a label of the receive loop. -/
theorem witness_illegal :
    (∀ selector ∈ [0x00#8, 0x0F#8, 0x16#8, 0x80#8, 0xFF#8],
        selector ∉ [0x10#8, 0x11#8, 0x12#8, 0x13#8, 0x14#8, 0x15#8, 0x20#8, 0x30#8, 0x40#8, 0x41#8, 0x42#8, 0x50#8])
      ∧ (issuing (.request 0x16#8 {}) base).pending = { line := .request 0x16#8 {}, draw := base.draw } :: [] := by decide

/-- `ErrorsLeaveTheStateTheSpecNames`: an instruction that ends with each kind of error. -/
theorem witness_errors :
    exec (.openLink ⟨0⟩) failing
        = .next { base with draw := failing.draw, resOut := failing.resOut ++ [⟨.host, .error .linkOpenError⟩] }
      ∧ exec (.write [0x00#8]) base = .next { base with resOut := base.resOut ++ [⟨.host, .error .notConnectedError⟩] }
      ∧ exec (.write [0x01#8, 0x02#8, 0x03#8]) failing
        = .next { failing with
            txStream := [0x01#8, 0x02#8], resOut := failing.resOut ++ [⟨.host, .error .linkWriteError⟩] }
      ∧ exec (.crcSum [] 0 1) base = .next { base with resOut := base.resOut ++ [⟨.host, .error .operandRefused⟩] }
      ∧ exec .cmdf0 tight = .next { tight with resOut := tight.resOut ++ [⟨.host, .error .operandRefused⟩] } :=
  ⟨rfl, rfl, rfl, rfl, rfl⟩

/-- `HostAndReceiveLoopCommute`: a `WRITE` and a received chunk, in either order. -/
theorem witness_commute :
    (nextOf (execAll [.write [0x01#8], .rxData a7] online)).isSome = true
      ∧ (nextOf (execAll [.rxData a7, .write [0x01#8]] online)).isSome = true := by decide +kernel

/-- `InstructionsCompleteExactlyWhenEnabled`: both sides, for the steps that can be out of reach. -/
theorem witness_enabled : Enabled .rxIdle online ∧ ¬Enabled .rxIdle base ∧ Enabled (.rxData [0x00#8]) online := by
  refine ⟨rfl, ?_, rfl, by decide, by decide⟩
  show ¬base.link = .opened
  decide

/-- `StepRunsTheDecodedInstruction`: an issued request, and a state with nothing issued. -/
theorem witness_issue :
    (issuing (.request 0x42#8 {}) base).pending = { line := .request 0x42#8 {}, draw := base.draw } :: []
      ∧ decode (.request 0x42#8 {}) = .ok .close ∧ base.pending = [] := by decide

/-- `DecodeOfEncodeIsTheInstruction`, `DecodedCodesAreCanonical`: a coded step of each format. -/
theorem witness_decode :
    WellFormed (.rxData [0x01#8]) = true ∧ decode (.request 0x10#8 { b := 0x01#8 }) = .ok .crcInit
      ∧ decode (.agentStep 0x80#8 [0x01#8]) = .ok (.rxData [0x01#8])
      ∧ decode (.wire .sens [0x10#8, 0x00#8, 0x0F#8, 0xA0#8]) = .ok (.sensPrefix 0x00#8 4000#16 []) := by decide +kernel

/-- `CommandFramesGoOutByPackThenWrite`: a refused `PACK`, and one that succeeds on an open link. -/
theorem witness_commandFrames :
    packFrame tight.params shapeFixed [0x00#8, 0x00#8, 0x00#8, 0x00#8] = none
      ∧ packFrame online.params shapeFixed [0x00#8, 0x00#8, 0x00#8, 0x03#8] = some cmdf3Bytes
      ∧ online.draw.gap = 0 ∧ online.link = .opened ∧ online.draw.ok = true := by decide +kernel

end Sys2Proof.Tests
end

section
/-! PROOFS. Noninterference of the two timeouts (spec/00_scope.md R7, R251): `State.withTimeouts` changes no field that a
rule reads and commutes with every operation the meanings are written over, hence with every instruction. -/

namespace Sys2Proof.Machine

/-! ### `mapNext` -/

@[simp] theorem mapNext_next (f : State → State) (t : State) : mapNext f (.next t) = .next (f t) := rfl
@[simp] theorem mapNext_fault (f : State → State) (r : Fault) : mapNext f (.fault r) = .fault r := rfl

/-! ### What `State.withTimeouts` leaves alone -/

section Fields

variable (s : State) (read write : Nat)

@[simp] theorem State.withTimeouts_crcAcc : (s.withTimeouts read write).crcAcc = s.crcAcc := rfl
@[simp] theorem State.withTimeouts_rxbuf : (s.withTimeouts read write).rxbuf = s.rxbuf := rfl
@[simp] theorem State.withTimeouts_link : (s.withTimeouts read write).link = s.link := rfl
@[simp] theorem State.withTimeouts_draw : (s.withTimeouts read write).draw = s.draw := rfl
@[simp] theorem State.withTimeouts_scratchSize :
    (s.withTimeouts read write).params.scratchSize = s.params.scratchSize := rfl
@[simp] theorem State.withTimeouts_logInvalidLength :
    (s.withTimeouts read write).params.logInvalidLength = s.params.logInvalidLength := rfl
@[simp] theorem State.withTimeouts_numerics :
    (s.withTimeouts read write).params.numerics = s.params.numerics := rfl

/-- `PACK` tests the capacity parameters and no timeout (R119). -/
@[simp] theorem packFrame_withTimeouts (shape : FrameShape) (payload : List Byte) :
    packFrame (s.withTimeouts read write).params shape payload = packFrame s.params shape payload := rfl

end Fields

/-! ### The operations of the state commute with `State.withTimeouts` -/

section Operations

variable (s : State) (read write : Nat)

@[simp] theorem State.setCrcAcc_withTimeouts (v : U16) :
    (s.withTimeouts read write).setCrcAcc v = (s.setCrcAcc v).withTimeouts read write := rfl
@[simp] theorem State.setLink_withTimeouts (v : Link) :
    (s.withTimeouts read write).setLink v = (s.setLink v).withTimeouts read write := rfl
@[simp] theorem State.appendTx_withTimeouts (bytes : List Byte) :
    (s.withTimeouts read write).appendTx bytes = (s.appendTx bytes).withTimeouts read write := rfl
@[simp] theorem State.appendRx_withTimeouts (chunk : List Byte) :
    (s.withTimeouts read write).appendRx chunk = (s.appendRx chunk).withTimeouts read write := rfl
@[simp] theorem State.appendDiag_withTimeouts (records : List DiagRecord) :
    (s.withTimeouts read write).appendDiag records = (s.appendDiag records).withTimeouts read write := rfl
@[simp] theorem State.setRxbuf_withTimeouts (m : Memory) :
    (s.withTimeouts read write).setRxbuf m = (s.setRxbuf m).withTimeouts read write := rfl
@[simp] theorem State.emit_withTimeouts (events : List Event) :
    (s.withTimeouts read write).emit events = (s.emit events).withTimeouts read write := rfl
@[simp] theorem State.respond_withTimeouts (issuer : Agent) (result : Result) :
    (s.withTimeouts read write).respond issuer result = (s.respond issuer result).withTimeouts read write := rfl
@[simp] theorem State.raise_withTimeouts (issuer : Agent) (kind : ErrorKind) :
    (s.withTimeouts read write).raise issuer kind = (s.raise issuer kind).withTimeouts read write := rfl

/-- `FEED` reads the buffer and `LOG_INVALID_LENGTH`, and writes neither timeout (R130, R139). -/
@[simp] theorem State.feed_withTimeouts (issuer : Agent) (chunk : List Byte) :
    (s.withTimeouts read write).feed issuer chunk = (s.feed issuer chunk).withTimeouts read write := by
  simp [State.feed]

end Operations

/-! ### The shared meanings commute with `State.withTimeouts` -/

section Meanings

variable (s : State) (read write : Nat)

/-- A step of the receive loop commutes when the step it guards does: the guard reads `LINK` alone (R172 to R175). -/
theorem whileOpen_withTimeouts {label : Byte} {stepWith step : Outcome}
    (h : stepWith = mapNext (State.withTimeouts read write) step) :
    whileOpen label (s.withTimeouts read write) stepWith
      = mapNext (State.withTimeouts read write) (whileOpen label s step) := by
  unfold whileOpen
  by_cases hl : s.link = .opened
  · simp [hl, h]
  · simp [hl]

/-- `SEND` commutes in both of its cases, the refused `PACK` and the queued `WRITE` (R81). -/
theorem State.send_withTimeouts (shape : FrameShape) (payload : List Byte) :
    (s.withTimeouts read write).send shape payload
      = mapNext (State.withTimeouts read write) (s.send shape payload) := by
  unfold State.send
  rw [packFrame_withTimeouts]
  cases packFrame s.params shape payload with
  | none => simp
  | some frame => rfl

/-- `PACK` commutes, emitted or refused (R110). -/
theorem execPack_withTimeouts (shape : FrameShape) (payload : List Byte) :
    execPack shape payload (s.withTimeouts read write)
      = mapNext (State.withTimeouts read write) (execPack shape payload s) := by
  unfold execPack
  rw [packFrame_withTimeouts]
  cases packFrame s.params shape payload <;> simp

/-- `CRC.SUM` commutes, in range or refused (R98). -/
theorem execCrcSum_withTimeouts (bytes : List Byte) (offset length : Nat) :
    execCrcSum bytes offset length (s.withTimeouts read write)
      = mapNext (State.withTimeouts read write) (execCrcSum bytes offset length s) := by
  unfold execCrcSum
  cases checksum bytes offset length <;> simp

/-- `CRC.SUMLE` commutes, in range or refused (R99). -/
theorem execCrcSumle_withTimeouts (bytes : List Byte) (offset length : Nat) :
    execCrcSumle bytes offset length (s.withTimeouts read write)
      = mapNext (State.withTimeouts read write) (execCrcSumle bytes offset length s) := by
  unfold execCrcSumle
  cases checksum bytes offset length <;> simp

/-- `OPEN` commutes, from either state of the link and under either draw (R162). -/
theorem execOpen_withTimeouts (config : LinkConfig) :
    execOpen config (s.withTimeouts read write)
      = mapNext (State.withTimeouts read write) (execOpen config s) := by
  by_cases hl : s.link = .opened <;> cases hd : s.draw.ok <;> simp [execOpen, hl, hd]

/-- `WRITE` commutes, on a closed link and under either draw on an open one (R166). -/
theorem execWrite_withTimeouts (bytes : List Byte) :
    execWrite bytes (s.withTimeouts read write)
      = mapNext (State.withTimeouts read write) (execWrite bytes s) := by
  by_cases hl : s.link = .opened
  · cases hd : s.draw.ok <;> simp [execWrite, hl, hd]
  · simp [execWrite, hl]

/-- `RX.DATA` commutes: the chunk is tested against `SCRATCH_SIZE` and then fed (R172). -/
theorem execRxData_withTimeouts (chunk : List Byte) :
    execRxData chunk (s.withTimeouts read write)
      = mapNext (State.withTimeouts read write) (execRxData chunk s) := by
  apply whileOpen_withTimeouts
  rw [State.withTimeouts_scratchSize]
  cases chunkInRange s.params.scratchSize chunk <;> simp

end Meanings

/-- Every instruction commutes with `State.withTimeouts`: the meanings without a branch by the rules of the operations
they are written over, the others by their own lemma. -/
theorem exec_withTimeouts (i : Instr) (s : State) (read write : Nat) :
    exec i (s.withTimeouts read write) = mapNext (State.withTimeouts read write) (exec i s) := by
  cases i with
  | crcInit => simp [exec_crcInit, execCrcInit]
  | crcUpd b => simp [exec_crcUpd, execCrcUpd]
  | crcRd => simp [exec_crcRd, execCrcRd]
  | crcRdle => simp [exec_crcRdle, execCrcRdle]
  | crcSum bytes offset length => exact execCrcSum_withTimeouts ..
  | crcSumle bytes offset length => exact execCrcSumle_withTimeouts ..
  | pack shape payload => exact execPack_withTimeouts ..
  | feed chunk => simp [exec_feed, execFeed]
  | openLink config => exact execOpen_withTimeouts s read write config
  | write bytes => exact execWrite_withTimeouts ..
  | close => simp [exec_close, execClose]
  | dispatch payload => simp [exec_dispatch, execDispatch]
  | rxData chunk => exact execRxData_withTimeouts ..
  | rxIdle => exact whileOpen_withTimeouts s read write rfl
  | rxErr => exact whileOpen_withTimeouts s read write rfl
  | rxfPrefix totalLen rest => simp [exec_rxfPrefix, execRxfPrefix]
  | cmdf0 | cmdf1 | cmdf2 | cmdf3 => exact State.send_withTimeouts ..
  | sensPrefix unread raw rest => simp [exec_sensPrefix, execSensPrefix]

/-- Settles O49: no instruction reads or writes a timeout (R7, R251). -/
theorem timeoutsAreReadByNoRule : Obligations.TimeoutsAreReadByNoRule := by
  unfold Obligations.TimeoutsAreReadByNoRule
  exact exec_withTimeouts

end Sys2Proof.Machine
end

section
/-! PROOFS. What each instruction does to the state, said once (`exec_effect`), and what the parser leaves behind; from
them the invariant of spec/10_state.md section 9 and the writers of R10. -/

namespace Sys2Proof.Machine

/-! ### The fields after `FEED` (R130) -/

section Feed

variable (s : State) (issuer : Agent) (chunk : List Byte)

@[simp] theorem State.feed_crcAcc : (s.feed issuer chunk).crcAcc = s.crcAcc := rfl
@[simp] theorem State.feed_link : (s.feed issuer chunk).link = s.link := rfl
@[simp] theorem State.feed_txStream : (s.feed issuer chunk).txStream = s.txStream := rfl
@[simp] theorem State.feed_rxStream : (s.feed issuer chunk).rxStream = s.rxStream := rfl
@[simp] theorem State.feed_pending : (s.feed issuer chunk).pending = s.pending := rfl
@[simp] theorem State.feed_draw : (s.feed issuer chunk).draw = s.draw := rfl
@[simp] theorem State.feed_params : (s.feed issuer chunk).params = s.params := rfl

end Feed

/-! ### The effect of an instruction -/

/-- What an instruction that takes a next state does: one rule for each way it changes the state. The first rule serves
every operation that only returns a result. -/
inductive Effect (s : State) : Instr → State → Prop where
  | answer {i} (result : Result) : Response.legal ⟨.host, result⟩ = true → Effect s i (s.respond .host result)
  | crcInit : Effect s .crcInit ((s.setCrcAcc Config.crcSeed).respond .host .ok)
  | crcUpd (b : Byte) : Effect s (.crcUpd b) ((s.setCrcAcc (crcStep s.crcAcc b)).respond .host .ok)
  | feed (chunk : List Byte) : Effect s (.feed chunk) (s.feed .host chunk)
  | rxfPrefix (totalLen : U16) (rest : List Byte) :
      Effect s (.rxfPrefix totalLen rest) (s.feed .host (rxfBytes totalLen rest))
  | opened (config : LinkConfig) : Effect s (.openLink config) ((s.setLink .opened).respond .host .ok)
  | openFailed (config : LinkConfig) : Effect s (.openLink config) ((s.setLink .closed).raise .host .linkOpenError)
  | wrote {bytes : List Byte} (sent : List Byte) (result : Result) : Response.legal ⟨.host, result⟩ = true →
      Effect s (.write bytes) ((s.appendTx sent).respond .host result)
  | close : Effect s .close ((s.setLink .closed).respond .host .ok)
  | rxData (chunk : List Byte) : Effect s (.rxData chunk) ((s.appendRx chunk).feed .rxloop chunk)
  | rxIdle : Effect s .rxIdle s
  | rxErr : Effect s .rxErr (s.appendDiag [.transientReadError])
  | command {i} (r : Response) (pending : List Issue) : (i = .cmdf0 ∨ i = .cmdf1 ∨ i = .cmdf2 ∨ i = .cmdf3) →
      r.legal = true → Effect s i { s with resOut := s.resOut ++ [r], pending := pending }

section Inversion

variable {s t : State}

/-- `CRC.SUM` only answers, in range or refused (R98). -/
theorem effect_of_crcSum {bytes : List Byte} {offset length : Nat}
    (h : execCrcSum bytes offset length s = .next t) : Effect s (.crcSum bytes offset length) t := by
  unfold execCrcSum at h
  split at h <;> cases h
  · exact .answer _ rfl
  · exact .answer (.error .operandRefused) rfl

/-- `CRC.SUMLE` only answers, in range or refused (R99). -/
theorem effect_of_crcSumle {bytes : List Byte} {offset length : Nat}
    (h : execCrcSumle bytes offset length s = .next t) : Effect s (.crcSumle bytes offset length) t := by
  unfold execCrcSumle at h
  split at h <;> cases h
  · exact .answer _ rfl
  · exact .answer (.error .operandRefused) rfl

/-- `PACK` only answers, emitted or refused (R110, R119). -/
theorem effect_of_pack {shape : FrameShape} {payload : List Byte}
    (h : execPack shape payload s = .next t) : Effect s (.pack shape payload) t := by
  unfold execPack at h
  split at h <;> cases h
  · exact .answer _ rfl
  · exact .answer (.error .operandRefused) rfl

/-- A link that is not open is closed already. -/
theorem State.setLink_closed_of_ne_opened (h : s.link ≠ .opened) : s.setLink .closed = s := by
  have hl : s.link = .closed := by
    cases hs : s.link with
    | closed => rfl
    | opened => exact absurd hs h
  simp [State.setLink, ← hl]

/-- `OPEN` leaves the link open or closed, whatever it was before (R162, R163). -/
theorem effect_of_open {config : LinkConfig} (h : execOpen config s = .next t) : Effect s (.openLink config) t := by
  have hclosed : (if s.link = .opened then s.setLink .closed else s) = s.setLink .closed := by
    split
    · rfl
    · rename_i hl
      exact (State.setLink_closed_of_ne_opened hl).symm
  simp only [execOpen, hclosed] at h
  split at h <;> cases h
  · exact .opened config
  · exact .openFailed config

/-- `WRITE` puts bytes out and answers, or only answers (R166 to R168). -/
theorem effect_of_write {bytes : List Byte} (h : execWrite bytes s = .next t) : Effect s (.write bytes) t := by
  unfold execWrite at h
  split at h
  · split at h <;> cases h
    · exact .wrote bytes .ok rfl
    · exact .wrote _ (.error .linkWriteError) rfl
  · cases h
    exact .answer (.error .notConnectedError) rfl

/-- `RX.DATA` that takes a next state appends and feeds its chunk (R172). -/
theorem effect_of_rxData {chunk : List Byte} (h : execRxData chunk s = .next t) : Effect s (.rxData chunk) t := by
  obtain ⟨-, h⟩ := whileOpen_next.mp h
  split at h <;> cases h
  exact .rxData chunk

/-- `CMD.OUT` answers and may issue its `WRITE` (R81, R82). -/
theorem effect_of_cmdOut {i : Instr} {n : Byte} (hi : i = .cmdf0 ∨ i = .cmdf1 ∨ i = .cmdf2 ∨ i = .cmdf3)
    (h : s.cmdOut n = .next t) : Effect s i t := by
  obtain ⟨r, pending, hr, rfl⟩ := send_next h
  exact .command r pending hi hr

/-- Every next state is reached by one of the rules. -/
theorem exec_effect {i : Instr} (h : exec i s = .next t) : Effect s i t := by
  cases i with
  | crcInit => cases h; exact .crcInit
  | crcUpd b => cases h; exact .crcUpd b
  | crcRd | crcRdle | dispatch payload => cases h; exact .answer _ rfl
  | crcSum bytes offset length => exact effect_of_crcSum h
  | crcSumle bytes offset length => exact effect_of_crcSumle h
  | pack shape payload => exact effect_of_pack h
  | feed chunk => cases h; exact .feed chunk
  | openLink config => exact effect_of_open h
  | write bytes => exact effect_of_write h
  | close => cases h; exact .close
  | rxData chunk => exact effect_of_rxData h
  | rxIdle => obtain ⟨-, h⟩ := whileOpen_next.mp h; cases h; exact .rxIdle
  | rxErr => obtain ⟨-, h⟩ := whileOpen_next.mp h; cases h; exact .rxErr
  | rxfPrefix totalLen rest => cases h; exact .rxfPrefix totalLen rest
  | cmdf0 | cmdf1 | cmdf2 | cmdf3 => exact effect_of_cmdOut (by simp) h
  | sensPrefix unread raw rest => cases h; exact .answer _ rfl

end Inversion

/-! ### What one pass of the parser can report -/

/-- What a pass may report: a candidate that waits has a shape of R27, a rejected length is outside `6..1024` (R138), a
payload has 1 to 1018 bytes (R19). -/
def Pass.legal : Pass → Prop
  | .wait candidate => residualShape candidate = true
  | .badLength totalLen _ => lengthLegal totalLen = false
  | .deliver payload _ => (Event.validatedPayload payload).legal = true
  | .noMarker | .emptyPayload _ | .mismatch _ => True

/-- The payload of a whole frame is the frame without its 6 bytes of overhead (R142). -/
theorem framePayload_length (frame : List Byte) :
    (framePayload frame frame.length).length = frame.length - 6 := by
  simp only [framePayload, slice, List.length_take, List.length_drop, Config.rxHdrLen, Config.rxOverhead]
  omega

theorem judgeFrame_legal {frame : List Byte} (h : frame.length ≤ 1024) (rest : Memory) :
    (judgeFrame frame frame.length rest).legal := by
  have hlen := framePayload_length frame
  unfold judgeFrame
  split
  · trivial
  · rename_i hne
    simp only [Config.rxOverhead] at hne
    split
    · simp only [Pass.legal, Event.legal, Bool.and_eq_true, decide_eq_true_eq]
      omega
    · trivial

/-- The third shape of R27: the marker, a legal length, and fewer bytes than that length. -/
theorem residualShape_candidate_iff (lenHi lenLo : Byte) (t : List Byte) :
    residualShape (Config.markerHi :: Config.markerLo :: lenHi :: lenLo :: t) = true ↔
      6 ≤ (be16 lenHi lenLo).toNat ∧ (be16 lenHi lenLo).toNat ≤ 1024 ∧
        (Config.markerHi :: Config.markerLo :: lenHi :: lenLo :: t).length < (be16 lenHi lenLo).toNat := by
  simp [residualShape, Config.markerHi, Config.markerLo, and_assoc]

/-- A candidate, which begins with the marker, waits in a shape of R27, or is judged within the bounds of R138. -/
theorem candidatePass_legal (t : List Byte) : (candidatePass (Config.markerHi :: Config.markerLo :: t)).legal := by
  match t with
  | [] => rfl
  | [_] => rfl
  | lenHi :: lenLo :: u =>
    simp only [candidatePass]
    cases hlegal : lengthLegal (be16 lenHi lenLo) with
    | false => exact hlegal
    | true =>
      obtain ⟨hmin, hmax⟩ := (lengthLegal_iff _).mp hlegal
      simp only [Bool.true_eq_false, if_false]
      split
      · rename_i hshort
        exact (residualShape_candidate_iff lenHi lenLo u).mpr ⟨hmin, hmax, hshort⟩
      · rename_i hwhole
        have hfront := List.length_take_of_le (Nat.not_lt.mp hwhole)
        have := judgeFrame_legal (by rw [hfront]; exact hmax)
          (bufDrop (be16 lenHi lenLo).toNat (Config.markerHi :: Config.markerLo :: lenHi :: lenLo :: u))
        rwa [hfront] at this

theorem onePass_legal (buf : Memory) : (onePass buf).legal := by
  unfold onePass
  split
  · trivial
  · rename_i i hi
    obtain ⟨t, ht⟩ := find2_some_drop hi
    rw [bufDrop, ht]
    exact candidatePass_legal t

/-! ### What the whole loop leaves -/

/-- What a run of the loop may leave: a residual of one of the three shapes (R27), and legal events and records. -/
structure Parsed.Legal (logInvalid : Bool) (r : Parsed) : Prop where
  rest : residualShape r.rest = true
  events : r.events.all Event.legal = true
  diags : r.diags.all (DiagRecord.legal logInvalid) = true

/-- Legal reports in front of a legal run. -/
theorem Parsed.Legal.after {logInvalid : Bool} {r : Parsed} (hr : r.Legal logInvalid) {events : List Event}
    {diags : List DiagRecord} (he : events.all Event.legal = true)
    (hd : diags.all (DiagRecord.legal logInvalid) = true) : (r.after events diags).Legal logInvalid where
  rest := hr.rest
  events := by rw [parsed_after_events, List.all_append, he, hr.events]; rfl
  diags := by rw [parsed_after_diags, List.all_append, hd, hr.diags]; rfl

/-- The record of a rejected length is legal where it is kept (R139). -/
theorem badLength_diags_legal {totalLen : U16} (h : lengthLegal totalLen = false) (logInvalid : Bool) :
    (if logInvalid then [DiagRecord.invalidLength totalLen] else []).all (DiagRecord.legal logInvalid) = true := by
  cases logInvalid with
  | false => rfl
  | true =>
    have hrecord : DiagRecord.legal true (.invalidLength totalLen) = !lengthLegal totalLen := rfl
    simp [hrecord, h]

/-- The loop leaves legal reports and a residual of R27, from every buffer: by induction on the buffer's length, which
every pass that goes on shortens (R131). -/
theorem parse_legal (logInvalid : Bool) (buf : Memory) : (parse logInvalid buf).Legal logInvalid := by
  induction hn : buf.length using Nat.strong_induction_on generalizing buf with
  | _ n ih =>
    subst hn
    have later : ∀ rest, (onePass buf).next = some rest → (parse logInvalid rest).Legal logInvalid :=
      fun rest h => ih _ (onePass_shrinks h) rest rfl
    have hpass := onePass_legal buf
    rw [parse_unfold]
    cases hp : onePass buf <;> rw [hp] at hpass later
    case noMarker => exact ⟨rfl, rfl, rfl⟩
    case wait candidate => exact ⟨hpass, rfl, rfl⟩
    case badLength totalLen rest => exact (later rest rfl).after rfl (badLength_diags_legal hpass logInvalid)
    case emptyPayload rest => exact later rest rfl
    case mismatch rest => exact (later rest rfl).after rfl rfl
    case deliver payload rest =>
      have hevent : [Event.validatedPayload payload].all Event.legal = true := by simpa [Pass.legal] using hpass
      exact (later rest rfl).after hevent rfl

/-! ### The invariant -/

section Invariant

variable {s t : State}

/-! The invariant does not speak of the accumulator, the link, the two streams, what is issued and the draw. -/

theorem inv_setCrcAcc (v : U16) : Inv (s.setCrcAcc v) ↔ Inv s := Iff.rfl
theorem inv_setLink (v : Link) : Inv (s.setLink v) ↔ Inv s := Iff.rfl
theorem inv_appendTx (bytes : List Byte) : Inv (s.appendTx bytes) ↔ Inv s := Iff.rfl
theorem inv_appendRx (chunk : List Byte) : Inv (s.appendRx chunk) ↔ Inv s := Iff.rfl
theorem inv_pending_draw (pending : List Issue) (draw : EnvDraw) :
    Inv { s with pending := pending, draw := draw } ↔ Inv s := Iff.rfl

/-- A legal result keeps the invariant. -/
theorem Inv.respond (h : Inv s) {issuer : Agent} {result : Result}
    (hr : Response.legal ⟨issuer, result⟩ = true) : Inv (s.respond issuer result) := by
  obtain ⟨hbuf, hevt, hdiag, hres, hsize⟩ := h
  exact ⟨hbuf, hevt, hdiag, by simp [hres, hr], hsize⟩

/-- Legal diagnostic records keep the invariant. -/
theorem Inv.appendDiag (h : Inv s) {records : List DiagRecord}
    (hr : records.all (DiagRecord.legal s.params.logInvalidLength) = true) : Inv (s.appendDiag records) := by
  obtain ⟨hbuf, hevt, hdiag, hres, hsize⟩ := h
  exact ⟨hbuf, hevt, by rw [State.appendDiag_diagOut, List.all_append, State.appendDiag_params, hdiag, hr]; rfl, hres, hsize⟩

/-- `FEED` keeps the invariant, by what the parser leaves. -/
theorem Inv.feed (h : Inv s) (issuer : Agent) (chunk : List Byte) : Inv (s.feed issuer chunk) := by
  have hparse := parse_legal s.params.logInvalidLength (s.rxbuf ++ chunk)
  obtain ⟨-, hevt, hdiag, hres, hsize⟩ := h
  rw [State.feed_eq]
  refine ⟨hparse.rest, ?_, ?_, ?_, hsize⟩ <;> rw [List.all_append]
  · rw [hevt, hparse.events]; rfl
  · rw [hdiag, hparse.diags]; rfl
  · rw [hres]; rfl

/-- Every rule keeps the invariant. -/
theorem Effect.inv {i : Instr} (he : Effect s i t) (h : Inv s) : Inv t := by
  cases he with
  | answer result hr => exact h.respond hr
  | crcInit | crcUpd => exact ((inv_setCrcAcc _).mpr h).respond rfl
  | opened | openFailed | close => exact ((inv_setLink _).mpr h).respond rfl
  | wrote sent result hr => exact ((inv_appendTx sent).mpr h).respond hr
  | feed | rxfPrefix => exact h.feed ..
  | rxData chunk => exact ((inv_appendRx chunk).mpr h).feed ..
  | rxIdle => exact h
  | rxErr => exact h.appendDiag rfl
  | command r pending _ hr => exact (inv_pending_draw pending s.draw).mpr (h.respond hr)

end Invariant

/-- Settles O3: what a step carries out keeps the invariant, and so does the refusal of an undefined selector. -/
theorem everyStepKeepsTheInvariant : Obligations.EveryStepKeepsTheInvariant := by
  unfold Obligations.EveryStepKeepsTheInvariant
  intro s t hs hstep
  rcases step_cases hstep with ⟨-, rfl⟩ | ⟨issue, rest, -, ⟨i, -, hexec⟩ | ⟨selector, -, rfl⟩⟩
  · exact hs
  · exact (exec_effect hexec).inv ((inv_pending_draw rest issue.draw).mpr hs)
  · exact ((inv_pending_draw rest issue.draw).mpr hs).respond rfl

/-- Settles O2: every list is empty at reset, and `SCRATCH_SIZE` is a successor (R25, R7). -/
theorem resetMeetsTheInvariant : Obligations.ResetMeetsTheInvariant :=
  ⟨rfl, rfl, rfl, rfl, Nat.le_add_left 1 Config.scratchExtra⟩

/-! ### Who writes what -/

/-- Settles O46: each rule writes the elements its update names, and those only (R10). -/
theorem eachElementHasItsOnlyWriters : Obligations.EachElementHasItsOnlyWriters := by
  unfold Obligations.EachElementHasItsOnlyWriters
  intro i s t hexec
  cases exec_effect hexec with
  | command r pending hi => exact ⟨.inl rfl, .inl ⟨rfl, rfl⟩, .inl rfl, .inl rfl, .inl rfl, .inl rfl, .inr hi, rfl, rfl⟩
  | openFailed config => simp [State.raise_eq_respond]
  | answer | crcInit | crcUpd | feed | rxfPrefix | opened | wrote | close | rxData | rxIdle | rxErr => simp

end Sys2Proof.Machine
end

section
/-! PROOFS. The traces (spec/10_state.md R14): the past of the traces can be put in front after an operation as well as
before it, so that no instruction reads it; that a trace only grows follows. -/

namespace Sys2Proof.Machine

/-! ### A past put in front of the traces: what it leaves alone, and that every operation commutes with it -/

section Past

variable (past s : State)

/-- A state is itself with its traces emptied, and its own traces in front. -/
@[simp] theorem State.afterTraces_forgetTraces : s.afterTraces s.forgetTraces = s := by
  simp [State.afterTraces, State.forgetTraces]

@[simp] theorem State.forgetTraces_crcAcc : s.forgetTraces.crcAcc = s.crcAcc := rfl
@[simp] theorem State.forgetTraces_rxbuf : s.forgetTraces.rxbuf = s.rxbuf := rfl
@[simp] theorem State.forgetTraces_link : s.forgetTraces.link = s.link := rfl
@[simp] theorem State.forgetTraces_draw : s.forgetTraces.draw = s.draw := rfl
@[simp] theorem State.forgetTraces_params : s.forgetTraces.params = s.params := rfl

@[simp] theorem State.afterTraces_rxbuf : (past.afterTraces s).rxbuf = s.rxbuf := rfl
@[simp] theorem State.afterTraces_params : (past.afterTraces s).params = s.params := rfl

@[simp] theorem State.afterTraces_setCrcAcc (v : U16) :
    past.afterTraces (s.setCrcAcc v) = (past.afterTraces s).setCrcAcc v := rfl
@[simp] theorem State.afterTraces_setLink (v : Link) :
    past.afterTraces (s.setLink v) = (past.afterTraces s).setLink v := rfl
@[simp] theorem State.afterTraces_setRxbuf (m : Memory) :
    past.afterTraces (s.setRxbuf m) = (past.afterTraces s).setRxbuf m := rfl
@[simp] theorem State.afterTraces_appendTx (bytes : List Byte) :
    past.afterTraces (s.appendTx bytes) = (past.afterTraces s).appendTx bytes := by
  simp [State.afterTraces, State.appendTx]
@[simp] theorem State.afterTraces_appendRx (chunk : List Byte) :
    past.afterTraces (s.appendRx chunk) = (past.afterTraces s).appendRx chunk := by
  simp [State.afterTraces, State.appendRx]
@[simp] theorem State.afterTraces_appendDiag (records : List DiagRecord) :
    past.afterTraces (s.appendDiag records) = (past.afterTraces s).appendDiag records := by
  simp [State.afterTraces, State.appendDiag]
@[simp] theorem State.afterTraces_emit (events : List Event) :
    past.afterTraces (s.emit events) = (past.afterTraces s).emit events := by
  simp [State.afterTraces, State.emit]
@[simp] theorem State.afterTraces_respond (issuer : Agent) (result : Result) :
    past.afterTraces (s.respond issuer result) = (past.afterTraces s).respond issuer result := by
  simp [State.afterTraces, State.respond]
@[simp] theorem State.afterTraces_raise (issuer : Agent) (kind : ErrorKind) :
    past.afterTraces (s.raise issuer kind) = (past.afterTraces s).raise issuer kind :=
  State.afterTraces_respond ..

/-- `FEED` reads the buffer and a parameter, and appends to its traces (R130). -/
@[simp] theorem State.afterTraces_feed (issuer : Agent) (chunk : List Byte) :
    past.afterTraces (s.feed issuer chunk) = (past.afterTraces s).feed issuer chunk := by
  simp [State.feed]

end Past

/-! ### The meanings with a branch: no test reads a trace -/

/-- What it is for an outcome to be reached without a look at the traces of `s`: it is that of the emptied state, with
the traces put back in front. -/
def Traceless (s : State) (meaning : State → Outcome) : Prop :=
  meaning s = mapNext s.afterTraces (meaning s.forgetTraces)

section Meanings

variable (s : State)

/-- A step of the receive loop reads no trace when the step it guards reads none (R172 to R175). -/
theorem whileOpen_traceless {label : Byte} {guarded : State → Outcome} (h : Traceless s guarded) :
    Traceless s fun u => whileOpen label u (guarded u) := by
  unfold Traceless whileOpen at *
  by_cases hl : s.link = .opened <;> simp [hl, h]

theorem execCrcSum_traceless (bytes : List Byte) (offset length : Nat) :
    Traceless s (execCrcSum bytes offset length) := by
  unfold Traceless execCrcSum
  cases checksum bytes offset length <;> simp

theorem execCrcSumle_traceless (bytes : List Byte) (offset length : Nat) :
    Traceless s (execCrcSumle bytes offset length) := by
  unfold Traceless execCrcSumle
  cases checksum bytes offset length <;> simp

theorem execPack_traceless (shape : FrameShape) (payload : List Byte) : Traceless s (execPack shape payload) := by
  unfold Traceless execPack
  rw [State.forgetTraces_params]
  cases packFrame s.params shape payload <;> simp

theorem execOpen_traceless (config : LinkConfig) : Traceless s (execOpen config) := by
  unfold Traceless execOpen
  by_cases hl : s.link = .opened <;> cases hd : s.draw.ok <;> simp [hl, hd]

theorem execWrite_traceless (bytes : List Byte) : Traceless s (execWrite bytes) := by
  unfold Traceless execWrite
  by_cases hl : s.link = .opened
  · cases hd : s.draw.ok <;> simp [hl, hd]
  · simp [hl]

theorem execRxData_traceless (chunk : List Byte) : Traceless s (execRxData chunk) := by
  apply whileOpen_traceless
  by_cases hc : chunkInRange s.params.scratchSize chunk = true <;> simp [Traceless, hc]

theorem send_traceless (shape : FrameShape) (payload : List Byte) : Traceless s (State.send shape payload) := by
  unfold Traceless State.send
  rw [State.forgetTraces_params]
  cases packFrame s.params shape payload with
  | none => simp
  | some frame => simp [State.afterTraces, State.forgetTraces, State.respond]

end Meanings

/-- No instruction reads a trace: the meanings without a branch by the rules of the operations they are written over, the
others by their own lemma. -/
theorem exec_traceless (i : Instr) (s : State) : Traceless s (exec i) := by
  cases i with
  | crcInit => simp [Traceless, exec_crcInit, execCrcInit]
  | crcUpd b => simp [Traceless, exec_crcUpd, execCrcUpd]
  | crcRd => simp [Traceless, exec_crcRd, execCrcRd]
  | crcRdle => simp [Traceless, exec_crcRdle, execCrcRdle]
  | crcSum bytes offset length => exact execCrcSum_traceless ..
  | crcSumle bytes offset length => exact execCrcSumle_traceless ..
  | pack shape payload => exact execPack_traceless ..
  | feed chunk => simp [Traceless, exec_feed, execFeed]
  | openLink config => exact execOpen_traceless s config
  | write bytes => exact execWrite_traceless ..
  | close => simp [Traceless, exec_close, execClose]
  | dispatch payload => simp [Traceless, exec_dispatch, execDispatch]
  | rxData chunk => exact execRxData_traceless ..
  | rxIdle => exact whileOpen_traceless s (by simp [Traceless])
  | rxErr => exact whileOpen_traceless s (by simp [Traceless])
  | rxfPrefix totalLen rest => simp [Traceless, exec_rxfPrefix, execRxfPrefix]
  | cmdf0 | cmdf1 | cmdf2 | cmdf3 => exact send_traceless ..
  | sensPrefix unread raw rest => simp [Traceless, exec_sensPrefix, execSensPrefix]

/-- Settles O48: every meaning is reached without a look at the traces (R14). -/
theorem tracesAreNeverRead : Obligations.TracesAreNeverRead := exec_traceless

/-! ### The traces only grow -/

/-- A state stands with its traces in front of every state put after it. -/
theorem tracesGrow_afterTraces (s t : State) : TracesGrow s (s.afterTraces t) := by
  simp [TracesGrow, State.afterTraces]

/-- Taking an issue changes no trace. -/
theorem tracesGrow_pending_draw (s t : State) (pending : List Issue) (draw : EnvDraw) :
    TracesGrow { s with pending := pending, draw := draw } t ↔ TracesGrow s t := Iff.rfl

theorem mapNext_eq_next {f : State → State} {o : Outcome} {t : State} (h : mapNext f o = .next t) :
    ∃ u, t = f u := by
  cases o with
  | next u => cases h; exact ⟨u, rfl⟩
  | fault | refused => cases h

/-- An instruction appends to the traces: they are put in front of what it does to the emptied state. -/
theorem exec_tracesGrow {i : Instr} {s t : State} (h : exec i s = .next t) : TracesGrow s t := by
  rw [exec_traceless i s] at h
  obtain ⟨u, rfl⟩ := mapNext_eq_next h
  exact tracesGrow_afterTraces s u

/-- Settles O47: taking the issue changes no trace, and what is carried out then appends (R14). -/
theorem tracesOnlyGrow : Obligations.TracesOnlyGrow := by
  unfold Obligations.TracesOnlyGrow
  intro s t hstep
  rcases step_cases hstep with ⟨-, rfl⟩ | ⟨issue, rest, -, ⟨i, -, hexec⟩ | ⟨selector, -, rfl⟩⟩
  · simp [TracesGrow]
  · exact (tracesGrow_pending_draw ..).mp (exec_tracesGrow hexec)
  · simp [TracesGrow, State.raise_eq_respond]

end Sys2Proof.Machine
end

section
/-! PROOFS. The operations of `HOST` and the receive loop (spec/20_memory.md R54): what the one side reads the other does
not write, and each side's change to the state is settled by what it reads. -/

namespace Sys2Proof.Machine

/-! ### The `HOST` side -/

/-- The operations of `HOST` other than `FEED`, `OPEN` and `CLOSE`. -/
def HostLocal (i : Instr) : Prop :=
  i = .crcInit ∨ (∃ b, i = .crcUpd b) ∨ i = .crcRd ∨ i = .crcRdle ∨ (∃ b o l, i = .crcSum b o l)
    ∨ (∃ b o l, i = .crcSumle b o l) ∨ (∃ sh p, i = .pack sh p) ∨ (∃ b, i = .write b) ∨ ∃ p, i = .dispatch p

/-- The two states agree on what those operations read. -/
structure SameForHost (s u : State) : Prop where
  crcAcc : u.crcAcc = s.crcAcc
  link : u.link = s.link
  draw : u.draw = s.draw
  params : u.params = s.params

/-- All that those operations write: the accumulator, the bytes sent, one result. -/
def State.hostChange (acc : U16) (sent : List Byte) (result : Result) (s : State) : State :=
  ((s.setCrcAcc acc).appendTx sent).respond .host result

/-- The change of `i` from `s`, and from every state that agrees with `s` on what `i` reads. -/
def HostChanges (i : Instr) (s : State) : Prop :=
  ∃ acc sent result, ∀ u, SameForHost s u → exec i u = .next (u.hostChange acc sent result)

section Host

variable {i : Instr} {s : State}

@[simp] theorem State.appendTx_nil (u : State) : u.appendTx [] = u := by simp [State.appendTx]

/-- An operation that keeps the accumulator: bytes sent, and a result. -/
theorem hostChanges_of_send (sent : List Byte) (result : Result)
    (h : ∀ u, SameForHost s u → exec i u = .next ((u.appendTx sent).respond .host result)) : HostChanges i s := by
  refine ⟨s.crcAcc, sent, result, fun u hu => ?_⟩
  have hacc : u.setCrcAcc s.crcAcc = u := by rw [← hu.crcAcc]; rfl
  rw [h u hu, State.hostChange, hacc]

/-- An operation that only returns a result. -/
theorem hostChanges_of_answer (result : Result)
    (h : ∀ u, SameForHost s u → exec i u = .next (u.respond .host result)) : HostChanges i s :=
  hostChanges_of_send [] result fun u hu => by rw [h u hu, State.appendTx_nil]

/-- An operation that writes the accumulator. -/
theorem hostChanges_of_acc (acc : U16)
    (h : ∀ u, SameForHost s u → exec i u = .next ((u.setCrcAcc acc).respond .host .ok)) : HostChanges i s :=
  ⟨acc, [], .ok, fun u hu => by rw [h u hu, State.hostChange, State.appendTx_nil]⟩

/-- An operation that only ends with an error. -/
theorem hostChanges_of_raise (kind : ErrorKind)
    (h : ∀ u, SameForHost s u → exec i u = .next (u.raise .host kind)) : HostChanges i s :=
  hostChanges_of_answer (.error kind) h

theorem hostChanges_crcSum (b : List Byte) (o l : Nat) : HostChanges (.crcSum b o l) s := by
  cases hc : checksum b o l with
  | some sum => exact hostChanges_of_answer (.word sum) fun u _ => by rw [exec_crcSum, execCrcSum, hc]
  | none => exact hostChanges_of_raise .operandRefused fun u _ => by rw [exec_crcSum, execCrcSum, hc]

theorem hostChanges_crcSumle (b : List Byte) (o l : Nat) : HostChanges (.crcSumle b o l) s := by
  cases hc : checksum b o l with
  | some sum => exact hostChanges_of_answer (.bytes (le16Bytes sum)) fun u _ => by rw [exec_crcSumle, execCrcSumle, hc]
  | none => exact hostChanges_of_raise .operandRefused fun u _ => by rw [exec_crcSumle, execCrcSumle, hc]

theorem hostChanges_pack (sh : FrameShape) (p : List Byte) : HostChanges (.pack sh p) s := by
  cases hf : packFrame s.params sh p with
  | some frame => exact hostChanges_of_answer (.bytes frame) fun u hu => by rw [exec_pack, execPack, hu.params, hf]
  | none => exact hostChanges_of_raise .operandRefused fun u hu => by rw [exec_pack, execPack, hu.params, hf]

theorem hostChanges_write (b : List Byte) : HostChanges (.write b) s := by
  by_cases hl : s.link = .opened
  · cases hd : s.draw.ok with
    | true =>
      exact hostChanges_of_send b .ok fun u hu => by simp [exec_write, execWrite, hu.link, hu.draw, hl, hd]
    | false =>
      exact hostChanges_of_send (b.take s.draw.taken) (.error .linkWriteError) fun u hu => by
        simp [exec_write, execWrite, hu.link, hu.draw, hl, hd, State.raise_eq_respond]
  · exact hostChanges_of_raise .notConnectedError fun u hu => by simp [exec_write, execWrite, hu.link, hl]

/-- Each of those operations takes a next state, settled by what it reads. -/
theorem HostLocal.changes (hi : HostLocal i) (s : State) : HostChanges i s := by
  rcases hi with rfl | ⟨b, rfl⟩ | rfl | rfl | ⟨b, o, l, rfl⟩ | ⟨b, o, l, rfl⟩ | ⟨sh, p, rfl⟩ | ⟨b, rfl⟩ | ⟨p, rfl⟩
  · exact hostChanges_of_acc Config.crcSeed fun u _ => rfl
  · exact hostChanges_of_acc (crcStep s.crcAcc b) fun u hu => by rw [exec_crcUpd, execCrcUpd, hu.crcAcc]
  · exact hostChanges_of_answer (.word s.crcAcc) fun u hu => by rw [exec_crcRd, execCrcRd, hu.crcAcc]
  · exact hostChanges_of_answer (.bytes (le16Bytes s.crcAcc)) fun u hu => by
      rw [exec_crcRdle, execCrcRdle, hu.crcAcc]
  · exact hostChanges_crcSum b o l
  · exact hostChanges_crcSumle b o l
  · exact hostChanges_pack sh p
  · exact hostChanges_write b
  · exact hostChanges_of_answer (.domain (dispatchPayload s.params.numerics p)) fun u hu => by
      rw [exec_dispatch, execDispatch, hu.params]

end Host

/-! ### The side of the receive loop -/

/-- The steps of the receive loop. -/
def LoopStep (j : Instr) : Prop := j = .rxIdle ∨ j = .rxErr ∨ ∃ c, j = .rxData c

/-- The two states agree on what those steps read. -/
structure SameForLoop (s u : State) : Prop where
  rxbuf : u.rxbuf = s.rxbuf
  link : u.link = s.link
  params : u.params = s.params

/-- All that those steps write: the received stream, the buffer, the events, the diagnostic records, the results. -/
def State.loopChange (chunk : List Byte) (r : Parsed) (results : List Response) (s : State) : State :=
  { s with
    rxStream := s.rxStream ++ chunk
    rxbuf := r.rest
    evtOut := s.evtOut ++ r.events
    diagOut := s.diagOut ++ r.diags
    resOut := s.resOut ++ results }

/-- The change of `j` from `s`, and from every state that agrees with `s` on what `j` reads. -/
def LoopChanges (j : Instr) (s : State) : Prop :=
  ∃ chunk r results, ∀ u, SameForLoop s u → exec j u = .next (u.loopChange chunk r results)

/-- There is no step `j` in `s`, nor in any state that agrees with `s` on what `j` reads. -/
def LoopStuck (j : Instr) (s : State) : Prop := ∃ why, ∀ u, SameForLoop s u → exec j u = .fault why

section Loop

variable {s u : State}

/-- A guarded step, while the link is open in a state that agrees on it. -/
theorem SameForLoop.whileOpen_opened (hu : SameForLoop s u) (hl : s.link = .opened) (label : Byte) (o : Outcome) :
    whileOpen label u o = o := by
  rw [whileOpen, hu.link, if_pos hl]

/-- A guarded step, while the link is closed in a state that agrees on it. -/
theorem SameForLoop.whileOpen_closed (hu : SameForLoop s u) (hl : s.link ≠ .opened) (label : Byte) (o : Outcome) :
    whileOpen label u o = .fault (.rxStepNotEnabled label) := by
  rw [whileOpen, hu.link, if_neg hl]

/-- While the link is closed no step of the loop exists (R175). -/
theorem LoopStep.stuck_of_closed {j : Instr} (hj : LoopStep j) (hl : s.link ≠ .opened) : LoopStuck j s := by
  rcases hj with rfl | rfl | ⟨c, rfl⟩
  · exact ⟨_, fun u hu => hu.whileOpen_closed hl ..⟩
  · exact ⟨_, fun u hu => hu.whileOpen_closed hl ..⟩
  · exact ⟨_, fun u hu => hu.whileOpen_closed hl ..⟩

theorem loopChanges_rxIdle (hl : s.link = .opened) : LoopChanges .rxIdle s := by
  refine ⟨[], { rest := s.rxbuf, events := [], diags := [] }, [], fun u hu => ?_⟩
  rw [exec_rxIdle, execRxIdle, hu.whileOpen_opened hl]
  simp [State.loopChange, ← hu.rxbuf]

theorem loopChanges_rxErr (hl : s.link = .opened) : LoopChanges .rxErr s := by
  refine ⟨[], { rest := s.rxbuf, events := [], diags := [.transientReadError] }, [], fun u hu => ?_⟩
  rw [exec_rxErr, execRxErr, hu.whileOpen_opened hl]
  simp [State.loopChange, State.appendDiag, ← hu.rxbuf]

/-- `RX.DATA` on an open link: the parser's run on the buffer and the chunk, or no step for a chunk out of range. -/
theorem rxData_stuck_or_changes (c : List Byte) (hl : s.link = .opened) :
    LoopStuck (.rxData c) s ∨ LoopChanges (.rxData c) s := by
  have hexec : ∀ u, SameForLoop s u → exec (.rxData c) u =
      if chunkInRange s.params.scratchSize c then .next ((u.appendRx c).feed .rxloop c) else .fault .rxChunkOutOfRange :=
    fun u hu => by rw [exec_rxData, execRxData, hu.whileOpen_opened hl, hu.params]
  by_cases hc : chunkInRange s.params.scratchSize c = true
  · refine .inr ⟨c, parse s.params.logInvalidLength (s.rxbuf ++ c),
      [⟨.rxloop, .events (parse s.params.logInvalidLength (s.rxbuf ++ c)).events⟩], fun u hu => ?_⟩
    rw [hexec u hu, if_pos hc, ← hu.rxbuf, ← hu.params]
    rfl
  · exact .inl ⟨_, fun u hu => by rw [hexec u hu, if_neg hc]⟩

/-- Each of those steps is settled by what it reads, whether it exists or not. -/
theorem LoopStep.stuck_or_changes {j : Instr} (hj : LoopStep j) (s : State) : LoopStuck j s ∨ LoopChanges j s := by
  by_cases hl : s.link = .opened
  · rcases hj with rfl | rfl | ⟨c, rfl⟩
    · exact .inr (loopChanges_rxIdle hl)
    · exact .inr (loopChanges_rxErr hl)
    · exact rxData_stuck_or_changes c hl
  · exact .inl (hj.stuck_of_closed hl)

end Loop

/-! ### The two sides together -/

section Commute

variable (s : State)

/-- What `HOST` writes the receive loop does not read. -/
theorem sameForLoop_hostChange (acc : U16) (sent : List Byte) (result : Result) :
    SameForLoop s (s.hostChange acc sent result) := ⟨rfl, rfl, rfl⟩

/-- What the receive loop writes `HOST` does not read. -/
theorem sameForHost_loopChange (chunk : List Byte) (r : Parsed) (results : List Response) :
    SameForHost s (s.loopChange chunk r results) := ⟨rfl, rfl, rfl, rfl⟩

/-- The two changes commute up to where the one result of `HOST` stands among the results. -/
theorem hostChange_loopChange_comm (acc : U16) (sent : List Byte) (result : Result) (chunk : List Byte) (r : Parsed)
    (results : List Response) :
    let t := (s.hostChange acc sent result).loopChange chunk r results
    let u := (s.loopChange chunk r results).hostChange acc sent result
    { u with resOut := t.resOut } = t ∧ u.resOut.Perm t.resOut := by
  refine ⟨rfl, ?_⟩
  simp only [State.hostChange, State.loopChange, State.respond_resOut, State.appendTx_resOut, State.setCrcAcc_resOut,
    List.append_assoc]
  exact List.perm_append_comm.append_left s.resOut

/-- Two operations one after the other. -/
theorem execAll_pair (i j : Instr) : execAll [i, j] s = andThen (exec i s) (exec j) := by
  have hlast : execAll [j] = exec j := by
    funext t
    simp only [execAll, andThen]
    cases exec j t <;> rfl
  rw [execAll, hlast]

end Commute

/-- Settles O53: each side's change is the same before and after the other's, and the two changes commute (R54). -/
theorem hostAndReceiveLoopCommute : Obligations.HostAndReceiveLoopCommute := by
  unfold Obligations.HostAndReceiveLoopCommute
  intro i j s hi hj
  obtain ⟨acc, sent, result, hhost⟩ := HostLocal.changes hi s
  have hi_first : exec i s = .next (s.hostChange acc sent result) := hhost s ⟨rfl, rfl, rfl, rfl⟩
  rw [execAll_pair, execAll_pair, hi_first]
  rcases LoopStep.stuck_or_changes hj s with ⟨why, hstuck⟩ | ⟨chunk, r, results, hloop⟩
  · have hj_first : exec j s = .fault why := hstuck s ⟨rfl, rfl, rfl⟩
    have hj_second := hstuck _ (sameForLoop_hostChange s acc sent result)
    simp [andThen, hj_first, hj_second]
  · have hj_first : exec j s = .next (s.loopChange chunk r results) := hloop s ⟨rfl, rfl, rfl⟩
    have hj_second := hloop _ (sameForLoop_hostChange s acc sent result)
    have hi_second := hhost _ (sameForHost_loopChange s chunk r results)
    simp only [andThen, hj_first, hj_second, hi_second]
    refine ⟨⟨fun _ => ⟨_, rfl⟩, fun _ => ⟨_, rfl⟩⟩, fun t u ht hu => ?_⟩
    cases ht
    cases hu
    exact hostChange_loopChange_comm s acc sent result chunk r results

end Sys2Proof.Machine
end

section
/-! PROOFS. The state after reset (spec/10_state.md R25, spec/70_reset_and_hazards.md R232), and what one step takes up
(spec/10_state.md R15). -/

namespace Sys2Proof.Machine

/-- Settles O1: each element is read off the reset state. -/
theorem resetHoldsTheResetValues : Obligations.ResetHoldsTheResetValues := ⟨rfl, rfl, rfl, rfl, rfl, rfl, rfl⟩

/-- No step of the receive loop is enabled after reset: the link is closed (R175, R25). -/
theorem LoopStep.ne_next_reset {j : Instr} (hj : LoopStep j) (t : State) : exec j State.reset ≠ .next t := by
  obtain ⟨why, hstuck⟩ := hj.stuck_of_closed (s := State.reset) (by decide)
  rw [hstuck State.reset ⟨rfl, rfl, rfl⟩]
  nofun

/-- Settles O4: the four operations run on the reset state, and the closed link stops the receive loop (R232). -/
theorem firstOperationsAfterReset : Obligations.FirstOperationsAfterReset :=
  ⟨rfl, rfl, fun _ => rfl, rfl, fun chunk => LoopStep.ne_next_reset (.inr (.inr ⟨chunk, rfl⟩)),
    LoopStep.ne_next_reset (.inl rfl), LoopStep.ne_next_reset (.inr (.inl rfl))⟩

/-- With nothing issued a step is idle. -/
theorem step_of_idle {s : State} (h : s.pending = []) : step s = .next s := by
  simp only [step, State.takeIssue, h]

/-- A step carries out the instruction of the next issue, in the state with that issue taken. -/
theorem step_of_issue {s : State} {issue : Issue} {rest : List Issue} {i : Instr} (h : s.pending = issue :: rest)
    (hi : decode issue.line = .ok i) : step s = exec i { s with pending := rest, draw := issue.draw } := by
  simp only [step, State.takeIssue, h, hi]

/-- Settles O55: the issue taken is the head of the list (R15, R24). -/
theorem stepRunsTheDecodedInstruction : Obligations.StepRunsTheDecodedInstruction :=
  ⟨fun _ _ _ _ h hi => step_of_issue h hi, fun _ h => step_of_idle h⟩

end Sys2Proof.Machine
end

section
/-! PROOFS. The decoder and the encoder are inverse to each other (spec/30_encoding.md R71 to R74, R62 to R64): decoding a
coded form gives its instruction back, and what decodes has the code, or the bytes, of its coded form. -/

namespace Sys2Proof.Machine

/-! ### Decoding a coded form -/

/-- The chunk of an `RX.DATA` survives the coding unless it is empty (R72). -/
theorem decode_encode_rxData {chunk : List Byte} (h : chunk.isEmpty = false) :
    decode (encode (.rxData chunk)) = .ok (.rxData chunk) := by
  simp [encode, decode, decodeAgentStep, h]

/-- The big-endian length field of `RXF.PREFIX` survives the coding (R62). -/
theorem decode_encode_rxfPrefix (totalLen : U16) (rest : List Byte) :
    decode (encode (.rxfPrefix totalLen rest)) = .ok (.rxfPrefix totalLen rest) := by
  simp [encode, decode, decodeWire, rxfBytes, rxMarker, be16Bytes]

/-- The big-endian raw value of `SENS.PREFIX` survives the coding (R64). -/
theorem decode_encode_sensPrefix (unread : Byte) (raw : U16) (rest : List Byte) :
    decode (encode (.sensPrefix unread raw rest)) = .ok (.sensPrefix unread raw rest) := by
  simp [encode, decode, decodeWire, sensBytes, be16Bytes]

/-- Decoding undoes encoding: the selector, the label or the fixed bytes pick the row, and `RXF.PREFIX` and `SENS.PREFIX`
need that a `u16` is recovered from its bytes. -/
theorem decode_encode {i : Instr} (hi : WellFormed i = true) : decode (encode i) = .ok i := by
  cases i with
  | crcInit | crcUpd | crcRd | crcRdle | crcSum | crcSumle => rfl
  | pack | feed | openLink | write | close | dispatch => rfl
  | rxData chunk => exact decode_encode_rxData (by simpa [WellFormed] using hi)
  | rxIdle | rxErr => rfl
  | rxfPrefix totalLen rest => exact decode_encode_rxfPrefix totalLen rest
  | cmdf0 | cmdf1 | cmdf2 | cmdf3 => rfl
  | sensPrefix unread raw rest => exact decode_encode_sensPrefix unread raw rest

/-- Settles O56: `decode_encode`, one case for each row of the opcode table. -/
theorem decodeOfEncodeIsTheInstruction : Obligations.DecodeOfEncodeIsTheInstruction := by
  unfold Obligations.DecodeOfEncodeIsTheInstruction
  exact fun _ hi => decode_encode hi

/-! ### Encoding what was decoded -/

section Inversion

variable {i : Instr}

/-- A code is known by its number. -/
theorem eq_ofNat_of_toNat {code : Byte} {n : Nat} (h : code.toNat = n) : code = BitVec.ofNat 8 n := by
  rw [← h, BitVec.ofNat_toNat, BitVec.setWidth_eq]

/-- A request that decodes has the selector of its instruction, one of the twelve (R71, R74). -/
theorem encode_of_decodeRequest {selector : Byte} {o : Operands} (h : decodeRequest selector o = .ok i) :
    WellFormed i = true ∧ ∃ o', encode i = .request selector o' := by
  unfold decodeRequest at h
  split at h <;> cases h
  all_goals
    rename_i hcode
    rw [eq_ofNat_of_toNat hcode]
    exact ⟨rfl, _, rfl⟩

/-- A step of the receive loop that decodes has the label of its instruction, and its chunk is not empty where it has one
(R72). -/
theorem encode_of_decodeAgentStep {label : Byte} {chunk : List Byte} (h : decodeAgentStep label chunk = .ok i) :
    WellFormed i = true ∧ ∃ chunk', encode i = .agentStep label chunk' := by
  unfold decodeAgentStep at h
  split at h
  next hcode =>
    rw [eq_ofNat_of_toNat hcode]
    split at h <;> cases h
    rename_i hchunk
    exact ⟨by simpa [WellFormed] using hchunk, chunk, rfl⟩
  next hcode => rw [eq_ofNat_of_toNat hcode]; cases h; exact ⟨rfl, [], rfl⟩
  next hcode => rw [eq_ofNat_of_toNat hcode]; cases h; exact ⟨rfl, [], rfl⟩
  next => cases h

/-- The bytes of an `RXF.PREFIX` that decode are those of its coded form (R62). -/
theorem encode_of_decodeWire_rxf {bytes : List Byte} (h : decodeWire .rxf bytes = .ok i) :
    WellFormed i = true ∧ encode i = .wire .rxf bytes := by
  simp only [decodeWire] at h
  split at h
  · split at h <;> cases h
    rename_i hmarker
    obtain ⟨rfl, rfl⟩ := hmarker
    exact ⟨rfl, by simp [encode, rxfBytes, rxMarker, be16Bytes]⟩
  · cases h

/-- The bytes of a command frame that decode are one of the four frames (R63). -/
theorem encode_of_decodeWire_cmdf {bytes : List Byte} (h : decodeWire .cmdf bytes = .ok i) :
    WellFormed i = true ∧ encode i = .wire .cmdf bytes := by
  simp only [decodeWire] at h
  split_ifs at h with h0 h1 h2 h3 <;> cases h
  · exact ⟨rfl, by rw [h0]; rfl⟩
  · exact ⟨rfl, by rw [h1]; rfl⟩
  · exact ⟨rfl, by rw [h2]; rfl⟩
  · exact ⟨rfl, by rw [h3]; rfl⟩

/-- The bytes of a sensor report that decode are those of its coded form (R64). -/
theorem encode_of_decodeWire_sens {bytes : List Byte} (h : decodeWire .sens bytes = .ok i) :
    WellFormed i = true ∧ encode i = .wire .sens bytes := by
  simp only [decodeWire] at h
  split at h
  · split at h <;> cases h
    rename_i hcmd
    subst hcmd
    exact ⟨rfl, by simp [encode, sensBytes, be16Bytes]⟩
  · cases h

/-- A wire pattern that decodes is the coded form of its instruction, byte for byte (R73). -/
theorem encode_of_decodeWire {format : WireFormat} {bytes : List Byte} (h : decodeWire format bytes = .ok i) :
    WellFormed i = true ∧ encode i = .wire format bytes := by
  cases format with
  | rxf => exact encode_of_decodeWire_rxf h
  | cmdf => exact encode_of_decodeWire_cmdf h
  | sens => exact encode_of_decodeWire_sens h

end Inversion

/-- Settles O57: one inversion for each of the three formats. -/
theorem decodedCodesAreCanonical : Obligations.DecodedCodesAreCanonical := by
  unfold Obligations.DecodedCodesAreCanonical
  intro line i h
  cases line with
  | request selector o =>
    obtain ⟨hwf, o', hcode⟩ := encode_of_decodeRequest h
    rw [hcode]
    exact ⟨hwf, rfl⟩
  | agentStep label chunk =>
    obtain ⟨hwf, chunk', hcode⟩ := encode_of_decodeAgentStep h
    rw [hcode]
    exact ⟨hwf, rfl⟩
  | wire format bytes =>
    obtain ⟨hwf, hcode⟩ := encode_of_decodeWire h
    rw [hcode]
    exact ⟨hwf, rfl, rfl⟩

/-- Settles O58: each table word is decoded as it stands. -/
theorem tableWordsDecode : Obligations.TableWordsDecode := by
  unfold Obligations.TableWordsDecode
  decide

end Sys2Proof.Machine
end

section
/-! PROOFS. Runs of several operations, and the accumulator against the checksum of a whole sequence (spec/40_crc.md R95,
R98; spec/30_encoding.md R83). -/

namespace Sys2Proof.Machine

/-- A run of operations cut in two. -/
theorem execAll_append (xs ys : List Instr) (s : State) :
    execAll (xs ++ ys) s = andThen (execAll xs s) (execAll ys) := by
  induction xs generalizing s with
  | nil => rfl
  | cons i xs ih =>
    simp only [List.cons_append, execAll]
    cases exec i s with
    | next t => exact ih t
    | fault | refused => rfl

/-- One `CRC.UPD` for each byte folds the bytes into the accumulator and returns `Ok` each time (R95). -/
theorem execAll_crcUpd (bytes : List Byte) (s : State) :
    execAll (bytes.map .crcUpd) s = .next { s with
      crcAcc := crcFold s.crcAcc bytes
      resOut := s.resOut ++ List.replicate bytes.length ⟨.host, .ok⟩ } := by
  induction bytes generalizing s with
  | nil => simp [execAll]
  | cons b bytes ih =>
    have hfirst : exec (.crcUpd b) s = .next ((s.setCrcAcc (crcStep s.crcAcc b)).respond .host .ok) := rfl
    simp only [List.map_cons, execAll, hfirst, andThen, ih]
    simp [State.setCrcAcc, State.respond, List.replicate_succ]

/-- `CRC.OF` leaves the checksum of its bytes in the accumulator and returns it last (R83). -/
theorem execAll_crcOf (bytes : List Byte) (s : State) :
    execAll (crcOf bytes) s = .next { s with
      crcAcc := crc16 bytes
      resOut := s.resOut ++ List.replicate (bytes.length + 1) ⟨.host, .ok⟩ ++ [⟨.host, .word (crc16 bytes)⟩] } := by
  have hseed : exec .crcInit s = .next ((s.setCrcAcc Config.crcSeed).respond .host .ok) := rfl
  simp only [crcOf, List.cons_append, execAll, hseed, andThen, execAll_append, execAll_crcUpd, exec_crcRd, execCrcRd]
  simp [State.setCrcAcc, State.respond, crc16, List.replicate_succ]

/-- `CRC.SUM` over a whole sequence is always in range (R98). -/
theorem exec_crcSum_whole (bytes : List Byte) (s : State) :
    exec (.crcSum bytes 0 bytes.length) s = .next (s.respond .host (.word (crc16 bytes))) := by
  have hsum : checksum bytes 0 bytes.length = some (crc16 bytes) := by
    rcases checksum_cases bytes 0 bytes.length with ⟨-, h⟩ | ⟨hout, -⟩
    · simpa using h
    · omega
  rw [exec_crcSum, execCrcSum, hsum]

/-- Settles O13: both results are the checksum of the whole sequence. -/
theorem crcOfEqualsCrcSum : Obligations.CrcOfEqualsCrcSum := by
  unfold Obligations.CrcOfEqualsCrcSum
  intro bytes s
  exact ⟨rfl, _, _, crc16 bytes, execAll_crcOf bytes s, exec_crcSum_whole bytes s, by simp, rfl⟩

end Sys2Proof.Machine
end

section
/-! PROOFS. Where the five fields of a packed frame stand (spec/30_encoding.md R61). -/

namespace Sys2Proof.Machine

/-- Of five fields written one behind the other, each is read back behind the lengths of those before it. -/
theorem fields_at_offsets (header len payload sum trailer : List Byte) :
    let frame := header ++ len ++ payload ++ sum ++ trailer
    frame.take header.length = header
      ∧ (frame.drop header.length).take len.length = len
      ∧ (frame.drop (header.length + len.length)).take payload.length = payload
      ∧ (frame.drop (header.length + len.length + payload.length)).take sum.length = sum
      ∧ frame.drop (header.length + len.length + payload.length + sum.length) = trailer := by
  simp [Nat.add_assoc]

/-- A field that may be absent takes two bytes or none (R60). -/
theorem optionalField_length {field : List Byte} (h : field.length = 2) (present : Bool) :
    (if present = true then field else []).length = if present = true then 2 else 0 := by
  split
  · exact h
  · rfl

/-- Settles O18: a frame is its five fields in order, so each stands behind the lengths of those before it. -/
theorem packedFieldsStandAtTheirOffsets : Obligations.PackedFieldsStandAtTheirOffsets := by
  unfold Obligations.PackedFieldsStandAtTheirOffsets
  rintro p shape payload frame _ _ _ _ hpack rfl rfl rfl rfl
  obtain ⟨-, -, rfl⟩ := (packFrame_some_iff ..).mp hpack
  have hfields := fields_at_offsets shape.header
    (if shape.useLength = true then be16Bytes (BitVec.ofNat 16 (FrameLength.total shape payload)) else []) payload
    (if shape.useChecksum = true then le16Bytes (crc16 payload) else []) shape.trailer
  rw [optionalField_length (be16Bytes_length _), optionalField_length (le16Bytes_length _)] at hfields
  exact hfields

end Sys2Proof.Machine
end

section
/-! PROOFS. Frames at the front of the receive buffer that are whole, and the frame of length 6 (spec/30_encoding.md R77;
spec/42_deserializer.md R141 to R143). -/

namespace Sys2Proof.Machine

/-- A candidate with a legal length, all of whose bytes are there, is extracted and judged (R141, R143). -/
theorem candidatePass_of_whole {lenHi lenLo : Byte} {t : List Byte} (m0 m1 : Byte)
    (hlegal : lengthLegal (be16 lenHi lenLo) = true) (hwhole : (be16 lenHi lenLo).toNat ≤ t.length + 4) :
    candidatePass (m0 :: m1 :: lenHi :: lenLo :: t) =
      judgeFrame ((m0 :: m1 :: lenHi :: lenLo :: t).take (be16 lenHi lenLo).toNat) (be16 lenHi lenLo).toNat
        ((m0 :: m1 :: lenHi :: lenLo :: t).drop (be16 lenHi lenLo).toNat) := by
  have hlong : ¬(m0 :: m1 :: lenHi :: lenLo :: t).length < (be16 lenHi lenLo).toNat := by
    simp only [List.length_cons]
    omega
  simp only [candidatePass, hlegal, Bool.true_eq_false, if_false, if_neg hlong]

/-- A frame of length 6 at the front leaves no trace of its own: the loop goes on behind it (R77, R142). -/
theorem parse_emptyPayload (logInvalid : Bool) (lo hi : Byte) (t : List Byte) :
    parse logInvalid (0xEF#8 :: 0x01#8 :: 0x00#8 :: 0x06#8 :: lo :: hi :: t) = parse logInvalid t := by
  have hpass : onePass (0xEF#8 :: 0x01#8 :: 0x00#8 :: 0x06#8 :: lo :: hi :: t) = .emptyPayload t := by
    rw [show (0xEF#8 : Byte) = Config.markerHi from rfl, show (0x01#8 : Byte) = Config.markerLo from rfl,
      onePass_of_marker, candidatePass_of_whole _ _ rfl (by simp [be16])]
    rfl
  rw [parse_unfold, hpass]

/-- Settles O28: nothing of the empty frame is reported, and packing no payload gives one. -/
theorem emptyPayloadFrameIsDiscardedSilently : Obligations.EmptyPayloadFrameIsDiscardedSilently := by
  unfold Obligations.EmptyPayloadFrameIsDiscardedSilently
  refine ⟨fun chunk t lo hi s r hbuf hr => ?_, by decide⟩
  rw [exec_feed, execFeed, State.feed_eq, hbuf, parse_emptyPayload, ← hr]

end Sys2Proof.Machine
end

section
/-! PROOFS. The wire rows (spec/30_encoding.md R62 to R64, R73): the command frames by `PACK` and `WRITE` (R81, R82),
`RXF.PREFIX` and `SENS.PREFIX` by their consumers. -/

namespace Sys2Proof.Machine

/-! ### `SEND` -/

section Send

variable {shape : FrameShape} {payload frame : List Byte} {s : State}

/-- A refused `PACK` ends the `SEND` (R81). -/
theorem send_of_refused (h : packFrame s.params shape payload = none) :
    s.send shape payload = .next { s with resOut := s.resOut ++ [⟨.host, .error .operandRefused⟩] } := by
  obtain ⟨-, hsend⟩ | ⟨frame, hframe, -⟩ := send_cases shape payload s
  · exact hsend
  · simp [h] at hframe

/-- What a `SEND` leaves whose `PACK` gave the frame: the result, and the `WRITE` behind the gap (R81; log 10). -/
def State.sent (frame : List Byte) (s : State) : State :=
  { s with
    resOut := s.resOut ++ [⟨.host, .bytes frame⟩]
    pending := s.pending.take s.draw.gap ++
      { line := encode (.write frame), draw := { s.draw with gap := 0 } } :: s.pending.drop s.draw.gap }

/-- A `PACK` that gives a frame issues its `WRITE` (R81). -/
theorem send_of_packed (h : packFrame s.params shape payload = some frame) :
    s.send shape payload = .next (s.sent frame) := by
  obtain ⟨hnone, -⟩ | ⟨frame', hframe, hsend⟩ := send_cases shape payload s
  · simp [h] at hnone
  · rw [h] at hframe
    cases hframe
    exact hsend

/-- `WRITE` on an open link with a willing device puts all its bytes out (R166). -/
theorem exec_write_of_willing (hlink : s.link = .opened) (hok : s.draw.ok = true) (bytes : List Byte) :
    exec (.write bytes) s = .next ((s.appendTx bytes).respond .host .ok) := by
  rw [exec_write, execWrite, if_pos hlink, if_pos hok]

/-- With no gap, the step after a `SEND` is its `WRITE` (R81, R166). -/
theorem step_sent (hgap : s.draw.gap = 0) (hlink : s.link = .opened) (hok : s.draw.ok = true) (frame : List Byte) :
    step (s.sent frame) = .next { s with
      draw := { s.draw with gap := 0 }
      txStream := s.txStream ++ frame
      resOut := s.resOut ++ [⟨.host, .bytes frame⟩, ⟨.host, .ok⟩] } := by
  have hpending : (s.sent frame).pending =
      { line := encode (.write frame), draw := { s.draw with gap := 0 } } :: s.pending := by
    simp [State.sent, hgap]
  have hdecode : decode (encode (.write frame)) = .ok (.write frame) := decode_encode rfl
  rw [step_of_issue hpending hdecode, exec_write_of_willing]
  · simp [State.sent, State.appendTx, State.respond]
  · exact hlink
  · exact hok

end Send

/-- Settles O59: the bytes of the four frames are computed; the rest is `SEND` of any payload. -/
theorem commandFramesGoOutByPackThenWrite : Obligations.CommandFramesGoOutByPackThenWrite := by
  unfold Obligations.CommandFramesGoOutByPackThenWrite
  intro s i n frame hrow
  obtain ⟨hbytes, hexec⟩ : frameBytes shapeFixed [0x00#8, 0x00#8, 0x00#8, n] = frame
      ∧ exec i s = s.send shapeFixed [0x00#8, 0x00#8, 0x00#8, n] := by
    rcases hrow with h | h | h | h <;> cases h
    all_goals exact ⟨by decide, rfl⟩
  rw [hexec]
  exact ⟨hbytes, send_of_refused,
    fun hpack => ⟨s.sent frame, send_of_packed hpack, rfl, fun hgap hlink hok => step_sent hgap hlink hok frame⟩⟩

/-! ### `RXF.PREFIX` and `SENS.PREFIX` -/

/-- The bytes of an `RXF.PREFIX`, its length field given byte by byte (R62). -/
theorem rxfBytes_be16 (hi lo : Byte) (rest : List Byte) :
    rxfBytes (be16 hi lo) rest = 0xEF#8 :: 0x01#8 :: hi :: lo :: rest := by
  simp [rxfBytes, rxMarker, be16Bytes, Config.markerHi, Config.markerLo]

/-- The bytes of a sensor report, its raw value given byte by byte (R64). -/
theorem sensBytes_be16 (unread hi lo : Byte) (rest : List Byte) :
    sensBytes unread (be16 hi lo) rest = 0x10#8 :: unread :: hi :: lo :: rest := by
  simp [sensBytes, be16Bytes, Config.sensorCmd]

/-- Settles O60: each of the two rows is its consumer on the bytes the row writes out. -/
theorem prefixRowsRunTheirConsumers : Obligations.PrefixRowsRunTheirConsumers := by
  unfold Obligations.PrefixRowsRunTheirConsumers
  constructor
  · intro hi lo rest s
    rw [exec_rxfPrefix, execRxfPrefix, rxfBytes_be16]
    exact ⟨_, rfl, rfl⟩
  · intro unread hi lo rest s
    rw [exec_sensPrefix, execSensPrefix, sensBytes_be16]
    exact ⟨_, sensorReadingOf s.params.numerics (be16 hi lo), rfl, rfl, rfl⟩

end Sys2Proof.Machine
end

section
/-! PROOFS. The table form of the byte step and what follows from it, the residue; what a flipped bit does
(spec/40_crc.md R103). Both rest on a bit shift being linear and losing nothing. -/

namespace Sys2Proof.Machine

/-! ### The two bytes of a word -/

theorem lowByte_getLsbD (c : U16) (i : Nat) : (lowByte c).getLsbD i = (decide (i < 8) && c.getLsbD i) := by
  simp [lowByte, BitVec.getLsbD_extractLsb']

@[simp] theorem lowByte_setWidth (b : Byte) : lowByte (b.setWidth 16) = b := by
  rw [lowByte, BitVec.extractLsb'_setWidth_of_le (by decide), BitVec.extractLsb'_eq_self]

theorem lowByte_xor (c d : U16) : lowByte (c ^^^ d) = lowByte c ^^^ lowByte d := BitVec.extractLsb'_xor ..

theorem lowByte_ushiftRight_8 (c : U16) : lowByte (c >>> 8) = highByte c := by
  apply BitVec.eq_of_toNat_eq
  rw [lowByte_toNat, highByte_toNat, BitVec.toNat_ushiftRight, Nat.shiftRight_eq_div_pow]
  have := c.isLt
  omega

@[simp] theorem setWidth_ushiftRight_8 (b : Byte) : b.setWidth 16 >>> 8 = 0x0000#16 := by
  apply BitVec.eq_of_toNat_eq
  have := b.isLt
  rw [BitVec.toNat_ushiftRight, BitVec.toNat_setWidth_of_le (by decide), Nat.shiftRight_eq_div_pow]
  exact Nat.div_eq_of_lt this

/-- The two bytes of a word by arithmetic, low byte first (R46). -/
theorem le16Bytes_eq_ofNat (v : U16) :
    le16Bytes v = [BitVec.ofNat 8 (v.toNat % 256), BitVec.ofNat 8 (v.toNat / 256)] := by
  rw [← lowByte_toNat, ← highByte_toNat, BitVec.ofNat_toNat, BitVec.ofNat_toNat, BitVec.setWidth_eq,
    BitVec.setWidth_eq, le16Bytes]

/-! ### The table form -/

/-- While the bits shifted out are all 0, the polynomial is never applied (R91). -/
theorem crcShifts_eq_ushiftRight {n : Nat} {c : U16} (h : ∀ i < n, c.getLsbD i = false) :
    crcShifts n c = c >>> n := by
  induction n generalizing c with
  | zero => rw [crcShifts, BitVec.ushiftRight_zero]
  | succ n ih =>
    have hfirst : crcShift c = c >>> 1 := by
      rw [crcShift, h 0 (Nat.succ_pos n), if_neg Bool.false_ne_true]
    have hrest : ∀ i < n, (c >>> 1).getLsbD i = false := fun i hi => by
      rw [BitVec.getLsbD_ushiftRight]
      exact h (1 + i) (by omega)
    rw [crcShifts, hfirst, ih hrest, ← BitVec.shiftRight_add, Nat.add_comm]

/-- Eight bit shifts by table: clear the low byte, which moves the high byte down, and shift the low byte on its own. -/
theorem crcShifts_8_table (c : U16) : crcShifts 8 c = (c >>> 8) ^^^ crcShifts 8 ((lowByte c).setWidth 16) := by
  have hlow : ∀ i < 8, (c ^^^ (lowByte c).setWidth 16).getLsbD i = false := fun i hi => by
    rw [BitVec.getLsbD_xor, BitVec.getLsbD_setWidth, lowByte_getLsbD, decide_eq_true hi,
      decide_eq_true (show i < 16 by omega), Bool.true_and, Bool.true_and, Bool.xor_self]
  calc crcShifts 8 c
      = crcShifts 8 ((c ^^^ (lowByte c).setWidth 16) ^^^ (lowByte c).setWidth 16) := by
        rw [BitVec.xor_assoc, BitVec.xor_self, BitVec.xor_zero]
    _ = ((c ^^^ (lowByte c).setWidth 16) >>> 8) ^^^ crcShifts 8 ((lowByte c).setWidth 16) := by
        rw [crcShifts_xor, crcShifts_eq_ushiftRight hlow]
    _ = (c >>> 8) ^^^ crcShifts 8 ((lowByte c).setWidth 16) := by
        rw [BitVec.ushiftRight_xor_distrib, setWidth_ushiftRight_8, BitVec.xor_zero]

theorem crcStep_zero_byte (c : U16) : crcStep c 0x00#8 = crcShifts 8 c := by
  rw [crcStep, BitVec.setWidth_zero, BitVec.xor_zero]

theorem crcStep_table (c : U16) (b : Byte) :
    crcStep c b = (c >>> 8) ^^^ crcStep ((lowByte (c ^^^ b.setWidth 16)).setWidth 16) 0x00#8 := by
  rw [crcStep_zero_byte, crcStep, crcShifts_8_table, BitVec.ushiftRight_xor_distrib, setWidth_ushiftRight_8,
    BitVec.xor_zero]

/-- Settles O16: `crcStep_table`, and three values of the table. -/
theorem byteStepHasATableForm : Obligations.ByteStepHasATableForm := by
  unfold Obligations.ByteStepHasATableForm
  exact ⟨crcStep_table, by decide, by decide, by decide⟩

/-! ### The residue -/

/-- A byte equal to the accumulator's low byte shifts it out: the table is entered at 0. -/
theorem crcStep_lowByte (c : U16) : crcStep c (lowByte c) = c >>> 8 := by
  have hentry : lowByte (c ^^^ (lowByte c).setWidth 16) = 0x00#8 := by
    rw [lowByte_xor, lowByte_setWidth, BitVec.xor_self]
  have htable : crcStep 0x0000#16 0x00#8 = 0x0000#16 := by decide
  rw [crcStep_table, hentry, BitVec.setWidth_zero, htable, BitVec.xor_zero]

/-- Its own two bytes, low byte first, shift an accumulator out whole. -/
theorem crcFold_le16Bytes (c : U16) : crcFold c (le16Bytes c) = 0x0000#16 := by
  calc crcFold c (le16Bytes c)
      = crcStep (crcStep c (lowByte c)) (highByte c) := by simp [le16Bytes]
    _ = c >>> 8 >>> 8 := by rw [crcStep_lowByte, ← lowByte_ushiftRight_8, crcStep_lowByte]
    _ = 0x0000#16 := by rw [← BitVec.shiftRight_add]; exact BitVec.ushiftRight_eq_zero (by decide)

/-- Settles O15: the checksum is what the accumulator holds before its own two bytes. -/
theorem checksumResidueIsZero : Obligations.ChecksumResidueIsZero := by
  unfold Obligations.ChecksumResidueIsZero
  intro p
  rw [crc16, crcFold_append]
  exact crcFold_le16Bytes _

/-! ### A flipped bit -/

theorem crcStep_injective_acc {c d : U16} {b : Byte} (h : crcStep c b = crcStep d b) : c = d :=
  (BitVec.xor_left_inj _).mp (crcShifts_injective 8 h)

theorem crcStep_injective_byte {c : U16} {a b : Byte} (h : crcStep c a = crcStep c b) : a = b := by
  have hwide : a.setWidth 16 = b.setWidth 16 := (BitVec.xor_right_inj _).mp (crcShifts_injective 8 h)
  rw [← lowByte_setWidth a, hwide, lowByte_setWidth]

/-- Accumulators that differ stay different whatever follows. -/
theorem crcFold_injective {t : List Byte} {c d : U16} (h : crcFold c t = crcFold d t) : c = d := by
  induction t generalizing c d with
  | nil => exact h
  | cons b t ih => exact crcStep_injective_acc (ih (by simpa using h))

/-- Sequences that differ in one byte have different checksums. -/
theorem crc16_injective_byte {before after : List Byte} {a b : Byte}
    (h : crc16 (before ++ a :: after) = crc16 (before ++ b :: after)) : a = b := by
  simp only [crc16, crcFold_append, crcFold_cons] at h
  exact crcStep_injective_byte (crcFold_injective h)

theorem flipBit_ne (b : Byte) {k : Nat} (hk : k < 8) : b ≠ b ^^^ (1#8 <<< k) := by
  intro h
  have hbit := congrArg (fun v : Byte => v.getLsbD k) h
  simp [hk] at hbit

/-- Settles O14: a flipped bit makes another byte, and one byte that differs makes another checksum. -/
theorem singleBitFlipChangesTheChecksum : Obligations.SingleBitFlipChangesTheChecksum := by
  unfold Obligations.SingleBitFlipChangesTheChecksum
  intro before after b k hk h
  exact flipBit_ne b hk (crc16_injective_byte h)

end Sys2Proof.Machine
end

section
/-! PROOFS. The byte step as the bit loop, the checksum as the fold of it (spec/40_crc.md R91, R92), and the incremental
law (R101). -/

namespace Sys2Proof.Machine

theorem crcShifts_eq_iterate (n : Nat) (c : U16) : crcShifts n c = crcShift^[n] c := by
  induction n generalizing c with
  | zero => rfl
  | succ n ih => exact ih (crcShift c)

theorem crcFold_eq_foldl (c : U16) (s : List Byte) : crcFold c s = s.foldl crcStep c := by
  induction s generalizing c with
  | nil => rfl
  | cons b s ih => rw [crcFold_cons, List.foldl_cons, ih]

/-- Settles O11: the loop is eight bit shifts, the checksum the fold from `CRC_SEED`. -/
theorem checksumIsTheBitLoopFromTheSeed : Obligations.ChecksumIsTheBitLoopFromTheSeed := by
  unfold Obligations.ChecksumIsTheBitLoopFromTheSeed
  exact ⟨fun c b => crcShifts_eq_iterate 8 (c ^^^ b.setWidth 16), crcFold_eq_foldl 0xFFFF#16, by decide,
    by decide, rfl⟩

/-- `CRC.INIT` and one `CRC.UPD` for each byte leave the checksum in the accumulator (R94, R95). -/
theorem execAll_crcInit_crcUpd (bytes : List Byte) (s : State) :
    execAll (.crcInit :: bytes.map .crcUpd) s = .next { s with
      crcAcc := crc16 bytes
      resOut := s.resOut ++ List.replicate (bytes.length + 1) ⟨.host, .ok⟩ } := by
  simp only [execAll, exec_crcInit, execCrcInit, andThen, execAll_crcUpd]
  simp [State.setCrcAcc, State.respond, crc16, List.replicate_succ]

/-- Settles O12: the fold over `s ++ t` goes on over `t` from what it reached on `s`. -/
theorem checksumIsIncremental : Obligations.ChecksumIsIncremental := by
  unfold Obligations.ChecksumIsIncremental
  refine ⟨fun s t => ?_, execAll_crcInit_crcUpd⟩
  rw [← crcFold_eq_foldl, crc16, crc16, crcFold_append]

end Sys2Proof.Machine
end

section
/-! PROOFS. The six operations of the checksum codec, each with its selector, its whole next state and its worked
example (spec/40_crc.md R94 to R99). -/

namespace Sys2Proof.Machine

/-- Settles O5: `CRC.INIT` writes the seed and answers `Ok` (R94). -/
theorem crcInitSeedsTheAccumulator : Obligations.CrcInitSeedsTheAccumulator :=
  ⟨fun _ => rfl, exec_crcInit⟩

/-- Settles O6: `CRC.UPD` writes one byte step and answers `Ok` (R95). -/
theorem crcUpdTakesOneByteStep : Obligations.CrcUpdTakesOneByteStep :=
  ⟨fun _ => rfl, exec_crcUpd, by decide⟩

/-- Settles O7: `CRC.RD` answers the accumulator and writes nothing (R96). -/
theorem crcRdReturnsTheAccumulator : Obligations.CrcRdReturnsTheAccumulator :=
  ⟨fun _ => rfl, exec_crcRd⟩

/-- Settles O8: `CRC.RDLE` answers the two bytes of the accumulator and writes nothing (R97). -/
theorem crcRdleReturnsTheLowByteFirst : Obligations.CrcRdleReturnsTheLowByteFirst := by
  unfold Obligations.CrcRdleReturnsTheLowByteFirst
  refine ⟨fun _ => rfl, fun s => ?_, fun s hacc => ?_⟩
  · rw [← le16Bytes_eq_ofNat]
    exact exec_crcRdle s
  · have hbytes : le16Bytes s.crcAcc = [0x01#8, 0x6C#8] := by rw [hacc]; decide
    rw [exec_crcRdle, execCrcRdle, hbytes]
    rfl

section Range

variable {bytes : List Byte} {offset length : Nat}

theorem checksum_of_inside (h : offset + length ≤ bytes.length) :
    checksum bytes offset length = some (crc16 ((bytes.drop offset).take length)) := by
  rcases checksum_cases bytes offset length with ⟨-, hsum⟩ | ⟨hout, -⟩
  · exact hsum
  · omega

theorem checksum_of_outside (h : bytes.length < offset + length) : checksum bytes offset length = none := by
  rcases checksum_cases bytes offset length with ⟨hin, -⟩ | ⟨-, hsum⟩
  · omega
  · exact hsum

theorem exec_crcSum_of_inside (h : offset + length ≤ bytes.length) (s : State) :
    exec (.crcSum bytes offset length) s
      = .next (s.respond .host (.word (crc16 ((bytes.drop offset).take length)))) := by
  rw [exec_crcSum, execCrcSum, checksum_of_inside h]

theorem exec_crcSum_of_outside (h : bytes.length < offset + length) (s : State) :
    exec (.crcSum bytes offset length) s = .next (s.raise .host .operandRefused) := by
  rw [exec_crcSum, execCrcSum, checksum_of_outside h]

theorem exec_crcSumle_of_inside (h : offset + length ≤ bytes.length) (s : State) :
    exec (.crcSumle bytes offset length) s
      = .next (s.respond .host (.bytes (le16Bytes (crc16 ((bytes.drop offset).take length))))) := by
  rw [exec_crcSumle, execCrcSumle, checksum_of_inside h]

theorem exec_crcSumle_of_outside (h : bytes.length < offset + length) (s : State) :
    exec (.crcSumle bytes offset length) s = .next (s.raise .host .operandRefused) := by
  rw [exec_crcSumle, execCrcSumle, checksum_of_outside h]

end Range

/-- Settles O9: `CRC.SUM` inside and outside the sequence; the worked example is a range inside (R98). -/
theorem crcSumChecksumsTheRange : Obligations.CrcSumChecksumsTheRange := by
  unfold Obligations.CrcSumChecksumsTheRange
  refine ⟨fun _ => rfl, fun _ _ _ s => ⟨fun h => exec_crcSum_of_inside h s, fun h => exec_crcSum_of_outside h s⟩,
    fun s => ?_⟩
  have hsum : crc16 [0x01#8, 0x02#8, 0x03#8] = 0x6161#16 := by decide
  rw [← hsum]
  exact exec_crcSum_of_inside (by decide) s

/-- Settles O10: `CRC.SUMLE` inside and outside the sequence; the worked example is a range inside (R99). -/
theorem crcSumleChecksumsTheRange : Obligations.CrcSumleChecksumsTheRange := by
  unfold Obligations.CrcSumleChecksumsTheRange
  refine ⟨fun _ => rfl, fun _ _ _ s => ⟨fun h => exec_crcSumle_of_inside h s,
    fun h => exec_crcSumle_of_outside h s⟩, fun s => ?_⟩
  have hbytes : le16Bytes (crc16 [0x00#8, 0x00#8, 0x00#8, 0x00#8]) = [0x00#8, 0x24#8] := by decide
  rw [← hbytes]
  exact exec_crcSumle_of_inside (by decide) s

end Sys2Proof.Machine
end

section
/-! PROOFS. `PACK` (spec/41_serializer.md): when it is refused and what it emits otherwise (R110, R119), the length of a
frame (R121 (a)), and the way of a frame of the fixed shape through the receiver (R121 (b); spec/42_deserializer.md R141
to R147). -/

namespace Sys2Proof.Machine

/-! ### `PACK`: refused or emitted -/

theorem exceeds_iff (limit : Option Nat) (n : Nat) : exceeds limit n = true ↔ ∃ m, limit = some m ∧ m < n := by
  cases limit with
  | none => simp
  | some most => simp [exceeds_some]

/-- An operand is over its capacity when one of the three is longer than its parameter (R119). -/
theorem packOverCapacity_iff (p : Params) (shape : FrameShape) (payload : List Byte) :
    packOverCapacity p shape payload = true ↔
      (∃ m, p.hdrMax = some m ∧ m < shape.header.length) ∨ (∃ m, p.trlMax = some m ∧ m < shape.trailer.length)
        ∨ ∃ m, p.payloadMax = some m ∧ m < payload.length := by
  simp only [packOverCapacity, Bool.or_eq_true, exceeds_iff, or_assoc]

/-- Every operand is within its capacity when none exceeds its parameter (R119). -/
theorem packOverCapacity_eq_false_iff (p : Params) (shape : FrameShape) (payload : List Byte) :
    packOverCapacity p shape payload = false ↔
      (∀ m, p.hdrMax = some m → shape.header.length ≤ m) ∧ (∀ m, p.trlMax = some m → shape.trailer.length ≤ m)
        ∧ ∀ m, p.payloadMax = some m → payload.length ≤ m := by
  simp only [← Bool.not_eq_true, packOverCapacity_iff, not_or, not_exists, not_and, Nat.not_lt]

/-- The two bytes of a word by arithmetic, high byte first (R44). -/
theorem be16Bytes_eq_ofNat (v : U16) :
    be16Bytes v = [BitVec.ofNat 8 (v.toNat / 256), BitVec.ofNat 8 (v.toNat % 256)] := by
  rw [← lowByte_toNat, ← highByte_toNat, BitVec.ofNat_toNat, BitVec.ofNat_toNat, BitVec.setWidth_eq,
    BitVec.setWidth_eq, be16Bytes]

/-- A total that fits the length field is written there unreduced (R113). -/
theorem ofNat_toNat_of_fits {total : Nat} (h : total ≤ Config.lenFieldMax) : (BitVec.ofNat 16 total).toNat = total :=
  Nat.mod_eq_of_lt (Nat.lt_succ_of_le h)

/-- The five fields of a frame whose total fits, the bytes of its two numbers given by arithmetic (R110 to R117). -/
theorem frameBytes_of_fits {shape : FrameShape} {payload : List Byte}
    (h : shape.useLength = true → FrameLength.total shape payload ≤ Config.lenFieldMax) :
    frameBytes shape payload = shape.header
      ++ (if shape.useLength = true then
          [BitVec.ofNat 8 (FrameLength.total shape payload / 256),
            BitVec.ofNat 8 (FrameLength.total shape payload % 256)]
        else [])
      ++ payload
      ++ (if shape.useChecksum = true then
          [BitVec.ofNat 8 ((crc16 payload).toNat % 256), BitVec.ofNat 8 ((crc16 payload).toNat / 256)]
        else [])
      ++ shape.trailer := by
  rw [frameBytes, le16Bytes_eq_ofNat]
  cases hlen : shape.useLength with
  | false => rfl
  | true => rw [be16Bytes_eq_ofNat, ofNat_toNat_of_fits (h hlen)]

theorem exec_pack_of_none {shape : FrameShape} {payload : List Byte} {s : State}
    (h : packFrame s.params shape payload = none) :
    exec (.pack shape payload) s = .next (s.raise .host .operandRefused) := by
  rw [exec_pack, execPack, h]

theorem exec_pack_of_some {shape : FrameShape} {payload frame : List Byte} {s : State}
    (h : packFrame s.params shape payload = some frame) :
    exec (.pack shape payload) s = .next (s.respond .host (.bytes frame)) := by
  rw [exec_pack, execPack, h]

/-- Settles O17: `packFrame` decides between the two results, and neither writes anything else. -/
theorem packEmitsTheFieldsOrIsRefused : Obligations.PackEmitsTheFieldsOrIsRefused := by
  unfold Obligations.PackEmitsTheFieldsOrIsRefused
  refine ⟨fun _ => rfl, ?_, by decide⟩
  rintro shape payload s total htotal
  obtain rfl : total = FrameLength.total shape payload := htotal
  constructor
  · intro hrefused
    have hnone : packFrame s.params shape payload = none := by
      rw [packFrame_none_iff, packOverCapacity_iff, or_assoc, or_assoc]
      exact hrefused
    exact exec_pack_of_none hnone
  · rintro ⟨hhdr, htrl, hpayload, hfits⟩
    have hcapacity := (packOverCapacity_eq_false_iff ..).mpr ⟨hhdr, htrl, hpayload⟩
    rw [← frameBytes_of_fits hfits]
    exact exec_pack_of_some ((packFrame_some_iff ..).mpr ⟨hcapacity, hfits, rfl⟩)

/-! ### The length of a frame -/

/-- A frame is as long as its five fields together (R60). -/
theorem frameBytes_length (shape : FrameShape) (payload : List Byte) :
    (frameBytes shape payload).length =
      shape.header.length + (if shape.useLength = true then 2 else 0) + payload.length
        + (if shape.useChecksum = true then 2 else 0) + shape.trailer.length := by
  simp only [frameBytes, List.length_append, optionalField_length (be16Bytes_length _),
    optionalField_length (le16Bytes_length _)]

/-- With a length field the sum of R67 is the length of the frame. -/
theorem frameBytes_length_eq_total {shape : FrameShape} (h : shape.useLength = true) (payload : List Byte) :
    (frameBytes shape payload).length = FrameLength.total shape payload := by
  rw [frameBytes_length, if_pos h]
  rfl

/-- The two bytes behind the header are the length field, high byte first (R61, R44). -/
theorem frameBytes_lengthField {shape : FrameShape} (h : shape.useLength = true) (payload : List Byte) :
    (frameBytes shape payload)[shape.header.length]? =
        some (highByte (BitVec.ofNat 16 (FrameLength.total shape payload)))
      ∧ (frameBytes shape payload)[shape.header.length + 1]? =
        some (lowByte (BitVec.ofNat 16 (FrameLength.total shape payload))) := by
  simp [frameBytes, h, be16Bytes]

/-- Settles O19: the length field holds the total, which is the length of the frame. -/
theorem packedLengthFieldIsTheFrameLength : Obligations.PackedLengthFieldIsTheFrameLength := by
  unfold Obligations.PackedLengthFieldIsTheFrameLength
  intro p shape payload frame hpack
  obtain ⟨-, hfits, rfl⟩ := (packFrame_some_iff ..).mp hpack
  refine ⟨frameBytes_length shape payload, fun hlen => ?_⟩
  obtain ⟨hhi, hlo⟩ := frameBytes_lengthField hlen payload
  refine ⟨_, _, hhi, hlo, ?_⟩
  rw [← be16_toNat, be16_bytes, ofNat_toNat_of_fits (hfits hlen), frameBytes_length_eq_total hlen]

/-! ### A frame of the fixed shape through the receiver -/

/-- The overhead of a received frame is 6 bytes (R142). -/
theorem rxFrame_length (payload : List Byte) (stored : U16) : (rxFrame payload stored).length = payload.length + 6 := by
  simp only [rxFrame, rxfBytes, List.length_append, rxMarker_length, Config.rxMarkerLen, be16Bytes_length,
    le16Bytes_length]
  omega

/-- A frame byte by byte up to its payload (R62). -/
theorem rxFrame_eq_cons (payload : List Byte) (stored : U16) :
    rxFrame payload stored = Config.markerHi :: Config.markerLo :: highByte (BitVec.ofNat 16 (payload.length + 6))
      :: lowByte (BitVec.ofNat 16 (payload.length + 6)) :: (payload ++ le16Bytes stored) := rfl

/-- The payload is cut out of its frame again (R144). -/
theorem framePayload_rxFrame (payload : List Byte) (stored : U16) :
    framePayload (rxFrame payload stored) (payload.length + 6) = payload := by
  simp [framePayload, slice, rxFrame_eq_cons, Config.rxHdrLen, Config.rxOverhead]

/-- The stored checksum is read back from the end of its frame (R145). -/
theorem frameStored_rxFrame (payload : List Byte) (stored : U16) :
    frameStored (rxFrame payload stored) (payload.length + 6) = stored := by
  simp [frameStored, rxFrame_eq_cons, le16Bytes]

/-- A frame with a payload is judged by its checksum (R146, R147). -/
theorem judgeFrame_rxFrame {payload : List Byte} (h : 1 ≤ payload.length) (stored : U16) (rest : Memory) :
    judgeFrame (rxFrame payload stored) (payload.length + 6) rest =
      if crc16 payload = stored then .deliver payload rest else .mismatch rest := by
  have hpayload : payload.length + 6 - Config.rxOverhead ≠ 0 := Nat.ne_of_gt h
  rw [judgeFrame, if_neg hpayload, framePayload_rxFrame, frameStored_rxFrame]

/-- A pass on a buffer that begins with a whole frame takes the frame out and judges it (R133 to R147). -/
theorem onePass_rxFrame {payload : List Byte} (h : 1 ≤ payload.length) (hmax : payload.length ≤ 1018) (stored : U16)
    (t : List Byte) :
    onePass (rxFrame payload stored ++ t) = if crc16 payload = stored then .deliver payload t else .mismatch t := by
  have htotal : (BitVec.ofNat 16 (payload.length + 6)).toNat = payload.length + 6 :=
    ofNat_toNat_of_fits (by rw [Config.lenFieldMax]; omega)
  have hlegal : lengthLegal (BitVec.ofNat 16 (payload.length + 6)) = true := by
    rw [lengthLegal_iff, htotal]
    omega
  have hpass : onePass (rxFrame payload stored ++ t) =
      judgeFrame ((rxFrame payload stored ++ t).take (payload.length + 6)) (payload.length + 6)
        ((rxFrame payload stored ++ t).drop (payload.length + 6)) := by
    simp only [rxFrame_eq_cons, List.cons_append]
    rw [onePass_of_marker, candidatePass_of_whole _ _ (by rwa [be16_bytes]) (by simp [htotal]), be16_bytes, htotal]
  rw [hpass, List.take_left' (rxFrame_length ..), List.drop_left' (rxFrame_length ..), judgeFrame_rxFrame h]

/-- The loop on one frame with its own checksum delivers the payload and ends with nothing left (R147). -/
theorem parse_validFrame (logInvalid : Bool) {payload : List Byte} (h : 1 ≤ payload.length)
    (hmax : payload.length ≤ 1018) :
    parse logInvalid (rxFrame payload (crc16 payload)) = ⟨[], [.validatedPayload payload], []⟩ := by
  have hpass := onePass_rxFrame h hmax (crc16 payload) []
  rw [List.append_nil, if_pos rfl] at hpass
  rw [parse_unfold, hpass]
  rfl

/-- Settles O20: a packed frame of the fixed shape is a frame as the receiver reads them, with its own checksum. -/
theorem packThenFeedRecoversThePayload : Obligations.PackThenFeedRecoversThePayload := by
  unfold Obligations.PackThenFeedRecoversThePayload
  intro s p frame hpack hempty hmin hmax
  obtain ⟨-, -, rfl⟩ := (packFrame_some_iff ..).mp hpack
  rw [exec_feed, execFeed, State.feed_eq, hempty, List.nil_append, frameBytes_shapeFixed, parse_validFrame _ hmin hmax,
    List.append_nil, ← hempty]

end Sys2Proof.Machine
end

section
/-! PROOFS. The Frame Stream Parser (spec/42_deserializer.md): where the marker search lands, what one pass makes of a
candidate, that a pass does not see what stands behind the frame it takes, and from these the loop and `FEED`. -/

namespace Sys2Proof.Machine

/-! ### The marker search (R133) -/

section Search

variable {m0 m1 : Byte} {s t : List Byte} {i : Nat}

/-- The two bytes stand at `i` and right behind it. -/
def PairAt (m0 m1 : Byte) (s : List Byte) (i : Nat) : Prop := s[i]? = some m0 ∧ s[i + 1]? = some m1

theorem pairAt_zero_cons (a b : Byte) : PairAt m0 m1 (a :: b :: t) 0 ↔ a = m0 ∧ b = m1 := by simp [PairAt]

theorem pairAt_succ_cons (a : Byte) (i : Nat) : PairAt m0 m1 (a :: t) (i + 1) ↔ PairAt m0 m1 t i := by simp [PairAt]

theorem PairAt.lt_length (h : PairAt m0 m1 s i) : i + 1 < s.length := (List.getElem?_eq_some_iff.mp h.2).1

/-- Inside a sequence, what follows it is not seen. -/
theorem pairAt_append_iff (h : i + 1 < s.length) : PairAt m0 m1 (s ++ t) i ↔ PairAt m0 m1 s i := by
  rw [PairAt, List.getElem?_append_left (by omega), List.getElem?_append_left h, PairAt]

/-- The search lands on the first pair. -/
theorem find2_eq_some_iff : find2 m0 m1 s = some i ↔ PairAt m0 m1 s i ∧ ∀ j, j < i → ¬PairAt m0 m1 s j := by
  induction s generalizing i with
  | nil => simp [find2, PairAt]
  | cons a s ih =>
    cases s with
    | nil => simp [find2, PairAt]
    | cons b t =>
      rw [find2]
      split
      next hab =>
        have hpair := (pairAt_zero_cons (t := t) a b).mpr hab
        constructor
        · rintro ⟨⟩
          exact ⟨hpair, by simp⟩
        · rintro ⟨-, hfirst⟩
          cases i with
          | zero => rfl
          | succ i => exact absurd hpair (hfirst 0 i.succ_pos)
      next hab =>
        have hpair := mt (pairAt_zero_cons (t := t) a b).mp hab
        cases i with
        | zero => simp [hpair]
        | succ i =>
          have hbelow : (∀ j < i + 1, ¬PairAt m0 m1 (a :: b :: t) j) ↔ ∀ j < i, ¬PairAt m0 m1 (b :: t) j := by
            rw [Nat.forall_lt_succ_left]
            simp [hpair, pairAt_succ_cons]
          rw [pairAt_succ_cons, hbelow, ← ih]
          simp

theorem find2_eq_none (h : ∀ j, ¬PairAt m0 m1 s j) : find2 m0 m1 s = none :=
  Option.eq_none_iff_forall_ne_some.mpr fun i hi => h i (find2_eq_some_iff.mp hi).1

/-- A marker found stays the first one when more follows. -/
theorem find2_append_of_some (h : find2 m0 m1 s = some i) (t : List Byte) : find2 m0 m1 (s ++ t) = some i := by
  obtain ⟨hpair, hfirst⟩ := find2_eq_some_iff.mp h
  have hi := hpair.lt_length
  exact find2_eq_some_iff.mpr ⟨(pairAt_append_iff hi).mpr hpair, fun j hj hbelow =>
    hfirst j hj ((pairAt_append_iff (by omega)).mp hbelow)⟩

/-- A sequence without a marker is skipped, when no marker lies across its end. -/
theorem find2_append_of_none (h : find2 m0 m1 s = none) (hcut : ¬(s.getLast? = some m0 ∧ t.head? = some m1)) :
    find2 m0 m1 (s ++ t) = (find2 m0 m1 t).map (· + s.length) := by
  induction s with
  | nil => simp
  | cons a s ih =>
    cases s with
    | nil =>
      cases t with
      | nil => rfl
      | cons b t =>
        have hab : ¬(a = m0 ∧ b = m1) := by simpa using hcut
        simp [find2, hab]
    | cons b s =>
      rw [find2] at h
      split at h
      · cases h
      next hab =>
        have htail := ih (Option.map_eq_none_iff.mp h) (by simpa using hcut)
        rw [List.cons_append] at htail
        simp [find2, hab, htail, Function.comp_def, Nat.add_assoc]

end Search

/-- Settles O23: the first pair of `0xEF` and `0x01`. -/
theorem markerSearchFindsTheFirstMarker : Obligations.MarkerSearchFindsTheFirstMarker := by
  unfold Obligations.MarkerSearchFindsTheFirstMarker
  intro s i
  rw [find2_eq_some_iff]
  exact and_assoc

/-! ### One pass on a candidate (R136 to R147) -/

/-- The length field of a candidate, in the two bytes behind the marker (R137). -/
def candidateLength (c : Memory) : U16 := be16 (c.getD 2 0#8) (c.getD 3 0#8)

theorem candidateLength_toNat (c : Memory) :
    (candidateLength c).toNat = (c.getD 2 0#8).toNat * 256 + (c.getD 3 0#8).toNat := be16_toNat ..

theorem candidateLength_append {c : Memory} (h : ¬c.length < 4) (more : List Byte) :
    candidateLength (c ++ more) = candidateLength c := by
  rw [candidateLength, List.getD_append _ _ _ _ (by omega), List.getD_append _ _ _ _ (by omega), candidateLength]

/-- The lengths outside the bounds (R138). -/
theorem lengthLegal_eq_false_iff (totalLen : U16) :
    lengthLegal totalLen = false ↔ totalLen.toNat < 6 ∨ 1024 < totalLen.toNat := by
  rw [Bool.eq_false_iff, Ne, lengthLegal_iff]
  omega

/-- A pass on a candidate as the row of R150 writes it: the tests in the order of R212. -/
theorem candidatePass_eq (c : Memory) :
    candidatePass c =
      if c.length < 4 then .wait c
      else if lengthLegal (candidateLength c) = false then .badLength (candidateLength c) (c.drop 1)
      else if c.length < (candidateLength c).toNat then .wait c
      else judgeFrame (c.take (candidateLength c).toNat) (candidateLength c).toNat (c.drop (candidateLength c).toNat) := by
  match c with
  | [] | [_] | [_, _] | [_, _, _] => rfl
  | a :: b :: lenHi :: lenLo :: t => rw [if_neg (by simp)]; rfl

/-- The same pass with more bytes behind what it leaves. -/
def Pass.append (more : List Byte) : Pass → Pass
  | .noMarker => .noMarker
  | .wait candidate => .wait (candidate ++ more)
  | .badLength totalLen rest => .badLength totalLen (rest ++ more)
  | .emptyPayload rest => .emptyPayload (rest ++ more)
  | .mismatch rest => .mismatch (rest ++ more)
  | .deliver payload rest => .deliver payload (rest ++ more)

theorem judgeFrame_append (frame : List Byte) (totalLen : Nat) (rest : Memory) (more : List Byte) :
    judgeFrame frame totalLen (rest ++ more) = (judgeFrame frame totalLen rest).append more := by
  simp only [judgeFrame]
  split_ifs <;> rfl

/-- A candidate on which the loop goes on is judged in the same way whatever stands behind it. -/
theorem candidatePass_append {c rest : Memory} (h : (candidatePass c).next = some rest) (more : List Byte) :
    candidatePass (c ++ more) = (candidatePass c).append more := by
  have hlonger : c.length ≤ (c ++ more).length := by rw [List.length_append]; omega
  rw [candidatePass_eq c] at h ⊢
  split_ifs at h ⊢ with hheader hlegal hwhole
  · cases h
  · rw [candidatePass_eq, if_neg (by omega), candidateLength_append hheader, if_pos hlegal,
      List.drop_append_of_le_length (by omega)]
    rfl
  · cases h
  · rw [candidatePass_eq, if_neg (by omega), candidateLength_append hheader, if_neg hlegal, if_neg (by omega),
      List.take_append_of_le_length (by omega), List.drop_append_of_le_length (by omega), judgeFrame_append]

theorem Pass.append_next (p : Pass) (more : List Byte) : (p.append more).next = p.next.map (· ++ more) := by
  cases p <;> rfl

/-- What a pass leaves in the buffer, whether or not the loop goes on. -/
def Pass.left : Pass → Memory
  | .noMarker => []
  | .wait rest | .badLength _ rest | .emptyPayload rest | .mismatch rest | .deliver _ rest => rest

theorem Pass.left_of_next {p : Pass} {rest : Memory} (h : p.next = some rest) : p.left = rest := by
  cases p <;> cases h <;> rfl

/-- Bytes leave the buffer at its front only (R42). -/
theorem candidatePass_left_suffix (c : Memory) : (candidatePass c).left <:+ c := by
  rw [candidatePass_eq]
  split_ifs
  · exact List.suffix_rfl
  · exact List.drop_suffix 1 c
  · exact List.suffix_rfl
  · rw [Pass.left_of_next (judgeFrame_next ..)]
    exact List.drop_suffix _ c

/-- A candidate that waits, waits whole (R136, R141). -/
theorem candidatePass_left_of_break {c : Memory} (h : (candidatePass c).next = none) : (candidatePass c).left = c := by
  rw [candidatePass_eq] at h ⊢
  split_ifs at h ⊢
  · rfl
  · cases h
  · rfl
  · rw [judgeFrame_next] at h
    cases h

/-! ### One pass on a buffer -/

section OnePass

variable {buf rest : Memory} {i : Nat}

theorem onePass_of_some (h : find2 Config.markerHi Config.markerLo buf = some i) :
    onePass buf = candidatePass (buf.drop i) := by
  simp [onePass, h]

/-- A candidate is found at the front, whatever stands behind it (R148). -/
theorem onePass_drop_append (h : find2 Config.markerHi Config.markerLo buf = some i) (more : List Byte) :
    onePass (buf.drop i ++ more) = candidatePass (buf.drop i ++ more) := by
  obtain ⟨t, ht⟩ := find2_some_drop h
  rw [ht]
  exact onePass_of_marker _

/-- What precedes the first marker does not matter (R135). -/
theorem onePass_drop (h : find2 Config.markerHi Config.markerLo buf = some i) : onePass (buf.drop i) = onePass buf := by
  rw [onePass_of_some h]
  simpa using onePass_drop_append h []

theorem onePass_append_of_some (h : find2 Config.markerHi Config.markerLo buf = some i) (more : List Byte) :
    onePass (buf ++ more) = candidatePass (buf.drop i ++ more) := by
  have hi := (find2_eq_some_iff.mp h).1.lt_length
  rw [onePass_of_some (find2_append_of_some h more), List.drop_append_of_le_length (by omega)]

/-- Bytes without a marker in front change nothing, when no marker lies across their end. -/
theorem onePass_append_of_none (h : find2 Config.markerHi Config.markerLo buf = none) {more : List Byte}
    (hcut : cleanCut buf more) : onePass (buf ++ more) = onePass more := by
  have hfind := find2_append_of_none h hcut
  cases hmore : find2 Config.markerHi Config.markerLo more with
  | none => rw [onePass_of_none hmore, onePass_of_none (by rw [hfind, hmore]; rfl)]
  | some i =>
    rw [hmore, Option.map_some] at hfind
    rw [onePass_of_some hfind, onePass_of_some hmore, Nat.add_comm, List.drop_length_add_append]

/-- A pass on which the loop goes on is the same whatever stands behind the buffer. -/
theorem onePass_append (h : (onePass buf).next = some rest) (more : List Byte) :
    onePass (buf ++ more) = (onePass buf).append more := by
  cases hfind : find2 Config.markerHi Config.markerLo buf with
  | none => rw [onePass_of_none hfind] at h; cases h
  | some i =>
    rw [onePass_of_some hfind] at h ⊢
    rw [onePass_append_of_some hfind, candidatePass_append h]

/-- Where the call ends, what it leaves is as good as the whole buffer for what comes next, when no marker lies across the
cut. -/
theorem onePass_append_of_break (h : (onePass buf).next = none) {more : List Byte} (hcut : cleanCut buf more) :
    onePass (buf ++ more) = onePass ((onePass buf).left ++ more) := by
  cases hfind : find2 Config.markerHi Config.markerLo buf with
  | none => rw [onePass_append_of_none hfind hcut, onePass_of_none hfind]; rfl
  | some i =>
    rw [onePass_of_some hfind] at h ⊢
    rw [candidatePass_left_of_break h, onePass_append_of_some hfind, onePass_drop_append hfind]

theorem onePass_left_suffix (buf : Memory) : (onePass buf).left <:+ buf := by
  cases hfind : find2 Config.markerHi Config.markerLo buf with
  | none => rw [onePass_of_none hfind]; exact List.nil_suffix
  | some i => rw [onePass_of_some hfind]; exact (candidatePass_left_suffix _).trans (List.drop_suffix i buf)

end OnePass

/-! ### The loop (R131, R150) -/

/-- The events of one pass (R150). -/
def Pass.events : Pass → List Event
  | .mismatch _ => [.checksumMismatch]
  | .deliver payload _ => [.validatedPayload payload]
  | .noMarker | .wait _ | .badLength _ _ | .emptyPayload _ => []

/-- The diagnostic records of one pass (R139). -/
def Pass.diags (logInvalid : Bool) : Pass → List DiagRecord
  | .badLength totalLen _ => if logInvalid then [.invalidLength totalLen] else []
  | .noMarker | .wait _ | .emptyPayload _ | .mismatch _ | .deliver _ _ => []

theorem Pass.append_events (p : Pass) (more : List Byte) : (p.append more).events = p.events := by cases p <;> rfl

theorem Pass.append_diags (p : Pass) (more : List Byte) (logInvalid : Bool) :
    (p.append more).diags logInvalid = p.diags logInvalid := by cases p <;> rfl

section Loop

variable {buf rest : Memory} (logInvalid : Bool)

/-- Where the pass goes on, the loop is what the pass reports and the loop on what it leaves. -/
theorem parse_of_continue {p : Pass} (hp : onePass buf = p) (h : p.next = some rest) :
    parse logInvalid buf = (parse logInvalid rest).after p.events (p.diags logInvalid) := by
  rw [parse_unfold, hp]
  cases p <;> cases h <;> rfl

/-- Where the pass ends the call, nothing is reported. -/
theorem parse_of_break {p : Pass} (hp : onePass buf = p) (h : p.next = none) :
    parse logInvalid buf = ⟨p.left, [], []⟩ := by
  rw [parse_unfold, hp]
  cases p <;> cases h <;> rfl

theorem parse_of_onePass_eq {buf' : Memory} (h : onePass buf = onePass buf') :
    parse logInvalid buf = parse logInvalid buf' := by
  rw [parse_unfold, h, ← parse_unfold]

end Loop

/-- What holds of a buffer whenever it holds of what a pass leaves for the next pass, holds of every buffer: every pass
that goes on shortens the buffer (R131). -/
theorem loop_induction {P : Memory → Prop}
    (pass : ∀ buf, (∀ rest, (onePass buf).next = some rest → P rest) → P buf) (buf : Memory) : P buf := by
  induction hn : buf.length using Nat.strong_induction_on generalizing buf with
  | _ n ih =>
    subst hn
    exact pass buf fun rest h => ih _ (onePass_shrinks h) rest rfl

theorem parse_rest_suffix (logInvalid : Bool) (buf : Memory) : (parse logInvalid buf).rest <:+ buf := by
  induction buf using loop_induction with
  | pass buf ih =>
    have hleft := onePass_left_suffix buf
    cases hnext : (onePass buf).next with
    | none => rwa [parse_of_break logInvalid rfl hnext]
    | some rest =>
      rw [Pass.left_of_next hnext] at hleft
      rw [parse_of_continue logInvalid rfl hnext]
      exact (ih rest hnext).trans hleft

/-! ### The loop on the fronts the rules name -/

section Fronts

variable (logInvalid : Bool)

/-- Without a marker everything is discarded (R134). -/
theorem parse_of_markerFree {buf : Memory} (h : markerFree buf) : parse logInvalid buf = ⟨[], [], []⟩ :=
  parse_of_break logInvalid (onePass_of_none h) rfl

/-- A candidate of a shape of R27 waits (R136, R141). -/
theorem onePass_of_residual {m : Memory} (h : residualShape m = true) (hne : m ≠ []) : onePass m = .wait m := by
  match m with
  | [_, _] | [_, _, _] =>
    simp only [residualShape, Bool.and_eq_true, decide_eq_true_eq] at h
    obtain ⟨rfl, rfl⟩ := h
    exact onePass_of_marker _
  | a :: b :: lenHi :: lenLo :: t =>
    simp only [residualShape, Bool.and_eq_true, decide_eq_true_eq] at h
    obtain ⟨⟨⟨⟨rfl, rfl⟩, hmin⟩, hmax⟩, hshort⟩ := h
    have hlegal : ¬lengthLegal (be16 lenHi lenLo) = false := by simp [(lengthLegal_iff _).mpr ⟨hmin, hmax⟩]
    exact (onePass_of_marker _).trans ((if_neg hlegal).trans (if_pos hshort))

/-- A residual stays as it is (R151). -/
theorem parse_of_residual {m : Memory} (h : residualShape m = true) : parse logInvalid m = ⟨m, [], []⟩ := by
  by_cases hne : m = []
  · subst hne
    rfl
  · exact parse_of_break logInvalid (onePass_of_residual h hne) rfl

/-- An illegal length costs the first byte of the marker (R138, R139). -/
theorem parse_of_badLength {lenHi lenLo : Byte} (h : lengthLegal (be16 lenHi lenLo) = false) (t : List Byte) :
    parse logInvalid (0xEF#8 :: 0x01#8 :: lenHi :: lenLo :: t) =
      (parse logInvalid (0x01#8 :: lenHi :: lenLo :: t)).after []
        (if logInvalid then [.invalidLength (be16 lenHi lenLo)] else []) := by
  have hpass : onePass (0xEF#8 :: 0x01#8 :: lenHi :: lenLo :: t) =
      .badLength (be16 lenHi lenLo) (0x01#8 :: lenHi :: lenLo :: t) := (onePass_of_marker _).trans (if_pos h)
  exact parse_of_continue logInvalid hpass rfl

/-- What the checksum makes of a whole frame with a payload (R146, R147). -/
def frameEvent (payload : List Byte) (stored : U16) : Event :=
  if crc16 payload = stored then .validatedPayload payload else .checksumMismatch

/-- A whole frame is judged, and the loop goes on behind it (R146, R147). -/
theorem parse_rxFrame {payload : List Byte} (hmin : 1 ≤ payload.length) (hmax : payload.length ≤ 1018) (stored : U16)
    (t : List Byte) :
    parse logInvalid (rxFrame payload stored ++ t) = (parse logInvalid t).after [frameEvent payload stored] [] := by
  have hpass := onePass_rxFrame hmin hmax stored t
  rw [frameEvent]
  split_ifs at hpass ⊢ <;> exact parse_of_continue logInvalid hpass rfl

/-- Bytes without a marker in front change nothing, when no marker lies across their end (R134). -/
theorem parse_append_of_markerFree {garbage t : List Byte} (h : markerFree garbage) (hcut : cleanCut garbage t) :
    parse logInvalid (garbage ++ t) = parse logInvalid t :=
  parse_of_onePass_eq logInvalid (onePass_append_of_none h hcut)

/-- No marker lies across the start of a frame. -/
theorem cleanCut_rxFrame (before payload t : List Byte) (stored : U16) : cleanCut before (rxFrame payload stored ++ t) := by
  rintro ⟨-, hhead⟩
  cases hhead

/-- Valid frames back to back are all delivered (R156). -/
theorem parse_validFrames (payloads : List (List Byte)) (h : ∀ p ∈ payloads, 1 ≤ p.length ∧ p.length ≤ 1018) :
    parse logInvalid (payloads.map fun p => rxFrame p (crc16 p)).flatten
      = ⟨[], payloads.map .validatedPayload, []⟩ := by
  induction payloads with
  | nil => rfl
  | cons p payloads ih =>
    obtain ⟨⟨hmin, hmax⟩, hrest⟩ := List.forall_mem_cons.mp h
    rw [List.map_cons, List.flatten_cons, parse_rxFrame logInvalid hmin hmax, ih hrest, frameEvent, if_pos rfl]
    rfl

end Fronts

/-! ### The loop as a relation (R150) -/

/-- The payload is cut out of the candidate itself, the frame being its front (R144). -/
theorem framePayload_take (c : Memory) (n : Nat) : framePayload (c.take n) n = slice c 4 (n - 6) := by
  simp only [framePayload, slice, Config.rxHdrLen, Config.rxOverhead, List.drop_take, List.take_take]
  congr 1
  omega

/-- The stored checksum is read from the candidate itself (R145). -/
theorem frameStored_take_toNat (c : Memory) {n : Nat} (h : 2 ≤ n) :
    (frameStored (c.take n) n).toNat = (c.getD (n - 2) 0#8).toNat + 256 * (c.getD (n - 1) 0#8).toNat := by
  have htake : ∀ i < n, (c.take n).getD i 0#8 = c.getD i 0#8 := fun i hi => by
    rw [List.getD_eq_getElem?_getD, List.getElem?_take_of_lt hi, ← List.getD_eq_getElem?_getD]
  rw [frameStored, le16_toNat, htake _ (by omega), htake _ (by omega)]

/-- A frame with a payload, taken from the front of a candidate, is judged by its checksum (R146, R147). -/
theorem judgeFrame_take (c rest : Memory) {n : Nat} (h : 6 < n) :
    judgeFrame (c.take n) n rest =
      if (crc16 (slice c 4 (n - 6))).toNat = (c.getD (n - 2) 0#8).toNat + 256 * (c.getD (n - 1) 0#8).toNat
      then .deliver (slice c 4 (n - 6)) rest else .mismatch rest := by
  have hpayload : n - Config.rxOverhead ≠ 0 := by simp only [Config.rxOverhead]; omega
  simp only [judgeFrame, if_neg hpayload, framePayload_take, ← frameStored_take_toNat c (by omega : 2 ≤ n),
    BitVec.toNat_inj]

/-- The loop takes the rules of the relation: one pass is one rule (R150). -/
theorem loopRun_parse (logInvalid : Bool) (buf : Memory) :
    LoopRun logInvalid buf (parse logInvalid buf).rest (parse logInvalid buf).events (parse logInvalid buf).diags := by
  induction buf using loop_induction with
  | pass buf ih =>
    cases hfind : find2 Config.markerHi Config.markerLo buf with
    | none =>
      rw [parse_of_markerFree logInvalid hfind]
      exact .noMarker hfind
    | some i =>
      have hpass := (onePass_of_some hfind).trans (candidatePass_eq (buf.drop i))
      have htotal := candidateLength_toNat (buf.drop i)
      split_ifs at hpass with hheader hlegal hshort
      · rw [parse_of_break logInvalid hpass rfl]
        exact .shortHeader hfind hheader
      · have hbounds := (lengthLegal_eq_false_iff _).mp hlegal
        have hrun := LoopRun.badLength hfind (by omega) htotal hbounds (ih _ (congrArg Pass.next hpass))
        rw [BitVec.ofNat_toNat, BitVec.setWidth_eq] at hrun
        rw [parse_of_continue logInvalid hpass rfl]
        exact hrun
      · obtain ⟨hmin, hmax⟩ := (lengthLegal_iff _).mp (Bool.eq_true_of_not_eq_false hlegal)
        rw [parse_of_break logInvalid hpass rfl]
        exact .incomplete hfind (by omega) htotal hmin hmax hshort
      · obtain ⟨hmin, hmax⟩ := (lengthLegal_iff _).mp (Bool.eq_true_of_not_eq_false hlegal)
        rcases hmin.eq_or_lt with hsix | hpayload
        · rw [← hsix] at hpass htotal hshort
          rw [parse_of_continue logInvalid hpass rfl]
          exact .emptyPayload hfind (by omega) htotal.symm (ih _ (congrArg Pass.next hpass))
        · rw [judgeFrame_take _ _ hpayload] at hpass
          split_ifs at hpass with hsum <;> rw [parse_of_continue logInvalid hpass rfl]
          · exact .deliver hfind (by omega) htotal hpayload hmax (by omega) hsum (ih _ (congrArg Pass.next hpass))
          · exact .mismatch hfind (by omega) htotal hpayload hmax (by omega) hsum (ih _ (congrArg Pass.next hpass))

/-! ### The loop on a buffer that came in two parts (R153) -/

/-- A cut is clean or not by the bytes next to it: what is gone from the front does not matter. -/
theorem cleanCut_of_suffix {a a' b : List Byte} (h : cleanCut a b) (hsuffix : a' <:+ a) : cleanCut a' b := by
  rintro ⟨hlast, hhead⟩
  obtain ⟨front, rfl⟩ := hsuffix
  exact h ⟨by rw [List.getLast?_append, hlast]; rfl, hhead⟩

theorem parsed_after_after (e e' : List Event) (d d' : List DiagRecord) (r : Parsed) :
    (r.after e' d').after e d = r.after (e ++ e') (d ++ d') := by
  simp [Parsed.after]

/-- The loop on the first part leaves what the loop on the whole goes on with, when no marker lies across the cut. -/
theorem parse_append (logInvalid : Bool) (a b : Memory) (hcut : cleanCut a b) :
    parse logInvalid (a ++ b) =
      (parse logInvalid ((parse logInvalid a).rest ++ b)).after (parse logInvalid a).events
        (parse logInvalid a).diags := by
  induction a using loop_induction with
  | pass a ih =>
    cases hnext : (onePass a).next with
    | none =>
      rw [parse_of_break logInvalid rfl hnext]
      exact parse_of_onePass_eq logInvalid (onePass_append_of_break hnext hcut)
    | some rest =>
      have hpass := onePass_append hnext b
      have hnext' : ((onePass a).append b).next = some (rest ++ b) := by rw [Pass.append_next, hnext]; rfl
      have hsuffix : rest <:+ a := Pass.left_of_next hnext ▸ onePass_left_suffix a
      rw [parse_of_continue logInvalid rfl hnext, parse_of_continue logInvalid hpass hnext', Pass.append_events,
        Pass.append_diags, ih rest hnext (cleanCut_of_suffix hcut hsuffix), parsed_after_after]
      rfl

/-! ### `FEED` (R130) -/

section Feed

variable {s : State} {chunk : List Byte} {buf : Memory}

/-- `FEED` by what the loop makes of the buffer with the chunk behind it. -/
theorem exec_feed_of_parse {r : Parsed} (hbuf : s.rxbuf ++ chunk = buf) (h : parse s.params.logInvalidLength buf = r) :
    exec (.feed chunk) s = .next { s with
      rxbuf := r.rest
      evtOut := s.evtOut ++ r.events
      diagOut := s.diagOut ++ r.diags
      resOut := s.resOut ++ [⟨.host, .events r.events⟩] } := by
  rw [exec_feed, execFeed, State.feed_eq, hbuf, h]

/-- `FEED` where the loop reports nothing. -/
theorem exec_feed_of_quiet {rest : Memory} (hbuf : s.rxbuf ++ chunk = buf)
    (h : parse s.params.logInvalidLength buf = ⟨rest, [], []⟩) :
    exec (.feed chunk) s = .next { s with rxbuf := rest, resOut := s.resOut ++ [⟨.host, .events []⟩] } := by
  rw [exec_feed_of_parse hbuf h, List.append_nil, List.append_nil]

theorem rxbuf_append_of_empty (h : s.rxbuf = []) (chunk : List Byte) : s.rxbuf ++ chunk = chunk := by
  rw [h, List.nil_append]

end Feed

/-- Settles O22: the loop is a run of the relation, and `FEED` writes what it makes. -/
theorem feedRunsTheParserLoop : Obligations.FeedRunsTheParserLoop := by
  unfold Obligations.FeedRunsTheParserLoop
  exact ⟨fun _ => rfl, fun chunk s => ⟨_, _, _, loopRun_parse _ _, exec_feed_of_parse rfl rfl⟩⟩

/-- Settles O24: a buffer without a marker is free of it for the search, and one byte holds none. -/
theorem noMarkerDiscardsTheWholeBuffer : Obligations.NoMarkerDiscardsTheWholeBuffer := by
  unfold Obligations.NoMarkerDiscardsTheWholeBuffer
  refine ⟨fun chunk s hfree => ?_, fun b s hempty => ?_⟩
  · exact exec_feed_of_quiet rfl (parse_of_markerFree _ (find2_eq_none hfree))
  · exact exec_feed_of_quiet (rxbuf_append_of_empty hempty [b]) (parse_of_markerFree _ rfl)

/-- Settles O25: the first pass is the same with and without the noise. -/
theorem noiseBeforeTheMarkerIsDropped : Obligations.NoiseBeforeTheMarkerIsDropped := by
  unfold Obligations.NoiseBeforeTheMarkerIsDropped
  intro chunk s i hfind
  rw [exec_feed_of_parse rfl (parse_of_onePass_eq _ (onePass_drop hfind).symm), exec_feed_of_parse rfl rfl]
  rfl

/-- Settles O26: an incomplete candidate is a residual, and a residual stays as it is. -/
theorem incompleteCandidateWaits : Obligations.IncompleteCandidateWaits := by
  unfold Obligations.IncompleteCandidateWaits
  intro chunk t s hbuf hshort
  refine exec_feed_of_quiet rfl (parse_of_residual _ ?_)
  rw [hbuf]
  rcases hshort with hheader | ⟨hi, lo, u, rfl, hmin, hmax, hincomplete⟩
  · match t, hheader with
    | [], _ | [_], _ => rfl
  · rw [← be16_toNat] at hmin hmax hincomplete
    exact (residualShape_candidate_iff ..).mpr ⟨hmin, hmax, hincomplete⟩

/-- Settles O27: the pass that drops the byte, and the loop behind it. -/
theorem invalidLengthDropsOneByte : Obligations.InvalidLengthDropsOneByte := by
  unfold Obligations.InvalidLengthDropsOneByte
  rintro chunk t hi lo s r hbuf hbounds rfl
  rw [← be16_toNat, ← lengthLegal_eq_false_iff] at hbounds
  exact exec_feed_of_parse hbuf (parse_of_badLength _ hbounds t)

/-- Settles O29: the pass that takes the frame, and the loop behind it. -/
theorem wholeFrameIsJudgedByItsChecksum : Obligations.WholeFrameIsJudgedByItsChecksum := by
  unfold Obligations.WholeFrameIsJudgedByItsChecksum
  rintro chunk payload t stored s r e hmin hmax hbuf rfl rfl
  exact exec_feed_of_parse hbuf (parse_rxFrame _ hmin hmax stored t)

/-- A residual is shorter than the greatest legal length (R27, R43). -/
theorem length_le_of_residualShape {m : Memory} (h : residualShape m = true) : m.length ≤ 1023 := by
  match m with
  | [] | [_, _] | [_, _, _] => simp
  | a :: b :: lenHi :: lenLo :: t =>
    simp only [residualShape, Bool.and_eq_true, decide_eq_true_eq] at h
    omega

/-- Settles O30: what the loop leaves is a residual and the back of the buffer. -/
theorem feedLeavesAResidual : Obligations.FeedLeavesAResidual := by
  unfold Obligations.FeedLeavesAResidual
  intro chunk s
  have hshape := (parse_legal s.params.logInvalidLength (s.rxbuf ++ chunk)).rest
  exact ⟨_, exec_feed_of_parse rfl rfl, hshape, length_le_of_residualShape hshape, parse_rest_suffix _ _⟩

/-- Settles O31: a residual stays as it is. -/
theorem emptyChunkChangesNothing : Obligations.EmptyChunkChangesNothing := by
  unfold Obligations.EmptyChunkChangesNothing
  intro s hshape
  exact exec_feed_of_quiet (List.append_nil _) (parse_of_residual _ hshape)

/-- Settles O34: the garbage is skipped, and the frame behind it is taken. -/
theorem parserResynchronisesPastGarbage : Obligations.ParserResynchronisesPastGarbage := by
  unfold Obligations.ParserResynchronisesPastGarbage
  rintro s garbage p t r hempty hfree hmin hmax rfl
  have hframe := parse_rxFrame s.params.logInvalidLength hmin hmax (crc16 p) t
  rw [frameEvent, if_pos rfl, ← parse_append_of_markerFree _ hfree (cleanCut_rxFrame garbage p t (crc16 p)),
    ← List.append_assoc] at hframe
  exact exec_feed_of_parse (rxbuf_append_of_empty hempty _) hframe

/-- Settles O35: the frame with the flipped bit has another checksum than the stored one, and neither 5 nor 1025 is a legal
length. -/
theorem bitFlipIsReportedAndParsingResumes : Obligations.BitFlipIsReportedAndParsingResumes := by
  unfold Obligations.BitFlipIsReportedAndParsingResumes
  constructor
  · rintro s before after t b k r hempty hk hlen rfl
    have hsum : crc16 (before ++ (b ^^^ (1#8 <<< k)) :: after) ≠ crc16 (before ++ b :: after) :=
      fun h => flipBit_ne b hk (crc16_injective_byte h).symm
    have hframe := parse_rxFrame s.params.logInvalidLength (payload := before ++ (b ^^^ (1#8 <<< k)) :: after)
      (by simp; omega) (by simp; omega) (crc16 (before ++ b :: after)) t
    rw [frameEvent, if_neg hsum] at hframe
    exact exec_feed_of_parse (rxbuf_append_of_empty hempty _) hframe
  · rintro s rest total r hempty htotal rfl
    have hillegal : lengthLegal (be16 (highByte total) (lowByte total)) = false := by
      rw [be16_bytes]
      rcases htotal with rfl | rfl <;> rfl
    have hdropped := parse_of_badLength s.params.logInvalidLength hillegal rest
    rw [be16_bytes] at hdropped
    exact exec_feed_of_parse (rxbuf_append_of_empty hempty _) hdropped

/-- Settles O36: by induction on the frames. -/
theorem backToBackFramesAreAllDelivered : Obligations.BackToBackFramesAreAllDelivered := by
  unfold Obligations.BackToBackFramesAreAllDelivered
  intro s payloads hempty hlen
  rw [exec_feed_of_parse (rxbuf_append_of_empty hempty _) (parse_validFrames _ payloads hlen), List.append_nil, ← hempty]

/-! ### A stream in several chunks (R153 (a)) -/

/-- A state with other results in the trace: the results are grouped by the calls, all else is not. -/
def State.withResults (results : List Response) (s : State) : State := { s with resOut := results }

/-- Two `FEED`s are one, but for how their results are grouped. -/
theorem feed_feed_withResults {c d : List Byte} (hc : c ≠ []) (hcut : cleanCut c d) (issuer : Agent) (s : State)
    (results : List Response) :
    ((s.feed issuer c).feed issuer d).withResults results = (s.feed issuer (c ++ d)).withResults results := by
  have hcut' : cleanCut (s.rxbuf ++ c) d := by
    rwa [cleanCut, List.getLast?_append_of_ne_nil _ hc]
  have hparse := parse_append s.params.logInvalidLength (s.rxbuf ++ c) d hcut'
  rw [List.append_assoc] at hparse
  simp [State.feed_eq, State.withResults, hparse]

/-- The chunks behind a cut begin with the first of them. -/
theorem cleanCut_flatten {c next : List Byte} {rest : List (List Byte)} (hcut : cleanCut c next)
    (hnext : cleanlyCut (next :: rest)) : cleanCut c (next :: rest).flatten := by
  have hne : next ≠ [] := by
    cases rest with
    | nil => exact hnext
    | cons => exact hnext.1
  rwa [cleanCut, List.flatten_cons, List.head?_append_of_ne_nil _ hne]

/-- A run of `FEED`s over a cleanly cut stream is the `FEED` of the stream, but for how the results are grouped. -/
theorem execAll_feed_withResults {chunks : List (List Byte)} (hne : chunks ≠ []) (hcut : cleanlyCut chunks) (s : State) :
    ∃ t, execAll (chunks.map .feed) s = .next t ∧
      ∀ results, t.withResults results = (s.feed .host chunks.flatten).withResults results := by
  induction chunks generalizing s with
  | nil => exact absurd rfl hne
  | cons c chunks ih =>
    cases chunks with
    | nil => exact ⟨s.feed .host c, rfl, by simp⟩
    | cons next rest =>
      obtain ⟨hc, hclean, hrest⟩ := hcut
      obtain ⟨t, hrun, ht⟩ := ih (List.cons_ne_nil next rest) hrest (s.feed .host c)
      exact ⟨t, hrun, fun results =>
        (ht results).trans (feed_feed_withResults hc (cleanCut_flatten hclean hrest) .host s results)⟩

/-- Settles O32: by induction on the chunks, two `FEED`s being one at a clean cut. -/
theorem cleanCutsDoNotChangeTheEvents : Obligations.CleanCutsDoNotChangeTheEvents := by
  unfold Obligations.CleanCutsDoNotChangeTheEvents
  intro chunks s hne hcut
  obtain ⟨t, hrun, ht⟩ := execAll_feed_withResults hne hcut s
  exact ⟨t, s.feed .host chunks.flatten, hrun, rfl, ht s.resOut⟩

end Sys2Proof.Machine
end

section
/-! PROOFS. The Transport Channel (spec/43_transport.md): `OPEN`, `WRITE` and `CLOSE` by the link and the draw, the steps of
the receive loop by the link and the chunk, and from these when an instruction has a step at all. -/

namespace Sys2Proof.Machine

variable {s t : State}

/-! ### `OPEN`, `WRITE` and `CLOSE` (R162 to R170) -/

/-- Closing the prior session, if there is one, leaves the link closed (R163). -/
theorem closePriorSession_eq (s : State) : (if s.link = .opened then s.setLink .closed else s) = s.setLink .closed := by
  split
  · rfl
  next hl => exact (State.setLink_closed_of_ne_opened hl).symm

theorem exec_openLink_of_willing (hok : s.draw.ok = true) (config : LinkConfig) :
    exec (.openLink config) s = .next ((s.setLink .opened).respond .host .ok) := by
  simp only [exec_openLink, execOpen, closePriorSession_eq, if_pos hok]
  rfl

theorem exec_openLink_of_failing (hok : s.draw.ok = false) (config : LinkConfig) :
    exec (.openLink config) s = .next ((s.setLink .closed).raise .host .linkOpenError) := by
  simp only [exec_openLink, execOpen, closePriorSession_eq, hok, Bool.false_eq_true, if_false]

theorem exec_write_of_failing (hlink : s.link = .opened) (hok : s.draw.ok = false) (bytes : List Byte) :
    exec (.write bytes) s = .next ((s.appendTx (bytes.take s.draw.taken)).raise .host .linkWriteError) := by
  rw [exec_write, execWrite, if_pos hlink, hok, if_neg Bool.false_ne_true]

theorem exec_write_of_closed (hlink : s.link = .closed) (bytes : List Byte) :
    exec (.write bytes) s = .next (s.raise .host .notConnectedError) := by
  rw [exec_write, execWrite, hlink, if_neg Link.noConfusion]

/-- Settles O37: the prior session is closed in either case, and the draw decides whether a new one follows. -/
theorem openFollowsTheDraw : Obligations.OpenFollowsTheDraw :=
  ⟨fun _ => rfl, fun config _ =>
    ⟨fun hok => exec_openLink_of_willing hok config, fun hok => exec_openLink_of_failing hok config⟩⟩

/-- Settles O38: one equation for each of the three cases of R166. -/
theorem writeFollowsTheLinkAndTheDraw : Obligations.WriteFollowsTheLinkAndTheDraw :=
  ⟨fun _ => rfl, fun bytes _ =>
    ⟨fun hlink => exec_write_of_closed hlink bytes, fun hlink hok => exec_write_of_willing hlink hok bytes,
      fun hlink hok => exec_write_of_failing hlink hok bytes⟩⟩

/-- Settles O39: `CLOSE` tests nothing (R170). -/
theorem closeAlwaysEndsTheSession : Obligations.CloseAlwaysEndsTheSession := ⟨fun _ => rfl, exec_close⟩

/-! ### The steps of the receive loop (R172 to R175) -/

theorem whileOpen_of_opened (hlink : s.link = .opened) (label : Byte) (o : Outcome) : whileOpen label s o = o :=
  SameForLoop.whileOpen_opened ⟨rfl, rfl, rfl⟩ hlink label o

theorem whileOpen_of_not_opened (hlink : s.link ≠ .opened) (label : Byte) (o : Outcome) :
    whileOpen label s o = .fault (.rxStepNotEnabled label) :=
  SameForLoop.whileOpen_closed ⟨rfl, rfl, rfl⟩ hlink label o

/-- Settles O41: the guard is open, and behind it stand the two updates. -/
theorem rxIdleAndRxErrLeaveTheLinkOpen : Obligations.RxIdleAndRxErrLeaveTheLinkOpen :=
  ⟨fun _ => rfl, fun _ => rfl, fun _ hlink => ⟨whileOpen_of_opened hlink .., whileOpen_of_opened hlink ..⟩⟩

/-- `CLOSE`, and an `OPEN` that failed, leave a link that is not open (R162, R170). -/
theorem link_ne_opened_of_ended {config : LinkConfig}
    (h : exec .close s = .next t ∨ (s.draw.ok = false ∧ exec (.openLink config) s = .next t)) : t.link ≠ .opened := by
  rcases h with hclose | ⟨hok, hopen⟩
  · cases hclose
    exact Link.noConfusion
  · rw [exec_openLink_of_failing hok] at hopen
    cases hopen
    exact Link.noConfusion

/-- Settles O42: the guard of the three steps tests the link first. -/
theorem closedLinkStopsTheReceiveLoop : Obligations.ClosedLinkStopsTheReceiveLoop := by
  unfold Obligations.ClosedLinkStopsTheReceiveLoop
  intro s t config hended
  have hlink := link_ne_opened_of_ended hended
  exact ⟨fun _ => whileOpen_of_not_opened hlink .., whileOpen_of_not_opened hlink .., whileOpen_of_not_opened hlink ..⟩

section RxData

variable {chunk : List Byte}

/-- `RX.DATA` where it is enabled: the received stream grows, and the chunk is fed (R172). -/
theorem exec_rxData_of_enabled (h : Enabled (.rxData chunk) s) :
    exec (.rxData chunk) s = .next ((s.appendRx chunk).feed .rxloop chunk) := by
  obtain ⟨hlink, hrange⟩ := h
  rw [exec_rxData, execRxData, whileOpen_of_opened hlink, if_pos ((chunkInRange_iff ..).mpr hrange)]

/-- Where it is not, one of its two tests stops it (R172, R175). -/
theorem exec_rxData_of_not_enabled (h : ¬Enabled (.rxData chunk) s) : ∃ why, exec (.rxData chunk) s = .fault why := by
  by_cases hlink : s.link = .opened
  · have hrange : ¬chunkInRange s.params.scratchSize chunk = true :=
      fun hc => h ⟨hlink, (chunkInRange_iff ..).mp hc⟩
    exact ⟨.rxChunkOutOfRange, by rw [exec_rxData, execRxData, whileOpen_of_opened hlink, if_neg hrange]⟩
  · exact ⟨_, whileOpen_of_not_opened hlink ..⟩

end RxData

/-- Settles O40: `FEED` neither reads nor writes the received stream, and its result is the same for either agent. -/
theorem rxDataRecordsAndFeedsTheChunk : Obligations.RxDataRecordsAndFeedsTheChunk := by
  unfold Obligations.RxDataRecordsAndFeedsTheChunk
  refine ⟨fun chunk hne => decode_encode_rxData (List.isEmpty_eq_false_iff.mpr hne), fun chunk s =>
    ⟨fun hlink hmin hmax => ?_, exec_rxData_of_not_enabled⟩⟩
  refine ⟨s.feed .host chunk, (parse s.params.logInvalidLength (s.rxbuf ++ chunk)).events, exec_feed chunk s, ?_⟩
  exact exec_rxData_of_enabled ⟨hlink, hmin, hmax⟩

/-! ### When an instruction has a step (R172 to R175, R217) -/

/-- A step of the receive loop that takes a next state is enabled; of the rest nothing is asked. -/
theorem enabled_of_exec {i : Instr} (h : exec i s = .next t) : Enabled i s := by
  cases i with
  | rxData chunk =>
    by_contra hnot
    obtain ⟨why, hfault⟩ := exec_rxData_of_not_enabled hnot
    rw [hfault] at h
    cases h
  | rxIdle | rxErr => exact (whileOpen_next.mp h).1
  | _ => trivial

/-- An operation whose change is settled by what it reads takes a next state. -/
theorem HostChanges.completes {i : Instr} (h : HostChanges i s) : ∃ t, exec i s = .next t := by
  obtain ⟨acc, sent, result, hexec⟩ := h
  exact ⟨_, hexec s ⟨rfl, rfl, rfl, rfl⟩⟩

/-- `SEND` takes a next state whether its `PACK` is refused or not (R81). -/
theorem send_completes (shape : FrameShape) (payload : List Byte) (s : State) : ∃ t, s.send shape payload = .next t := by
  rcases send_cases shape payload s with ⟨-, hsend⟩ | ⟨frame, -, hsend⟩ <;> exact ⟨_, hsend⟩

theorem exec_openLink_completes (config : LinkConfig) (s : State) : ∃ t, exec (.openLink config) s = .next t := by
  cases hok : s.draw.ok with
  | true => exact ⟨_, exec_openLink_of_willing hok config⟩
  | false => exact ⟨_, exec_openLink_of_failing hok config⟩

/-- An enabled instruction takes a next state: a request ends with a result, of whatever kind, and the guards of the
receive loop are met. -/
theorem exec_completes {i : Instr} (h : Enabled i s) : ∃ t, exec i s = .next t := by
  cases i with
  | crcInit | crcUpd | crcRd | crcRdle | feed | close | dispatch | rxfPrefix | sensPrefix => exact ⟨_, rfl⟩
  | crcSum bytes offset length => exact (hostChanges_crcSum bytes offset length).completes
  | crcSumle bytes offset length => exact (hostChanges_crcSumle bytes offset length).completes
  | pack shape payload => exact (hostChanges_pack shape payload).completes
  | write bytes => exact (hostChanges_write bytes).completes
  | openLink config => exact exec_openLink_completes config s
  | rxData chunk => exact ⟨_, exec_rxData_of_enabled h⟩
  | rxIdle | rxErr => exact ⟨_, whileOpen_of_opened h ..⟩
  | cmdf0 | cmdf1 | cmdf2 | cmdf3 => exact send_completes ..

/-- Settles O54: a next state shows the guards met, and met guards lead to a next state. -/
theorem instructionsCompleteExactlyWhenEnabled : Obligations.InstructionsCompleteExactlyWhenEnabled :=
  fun _ _ => ⟨fun ⟨_, h⟩ => enabled_of_exec h, exec_completes⟩

/-! ### From the link to a reading (R197) -/

/-- `FEED` of one whole frame with its own checksum, on an empty buffer, delivers the payload and leaves nothing (R147). -/
theorem feed_validFrame {payload : List Byte} (hempty : s.rxbuf = []) (hmin : 1 ≤ payload.length)
    (hmax : payload.length ≤ 1018) (issuer : Agent) :
    (s.feed issuer (rxFrame payload (crc16 payload))).rxbuf = []
      ∧ (s.feed issuer (rxFrame payload (crc16 payload))).evtOut = s.evtOut ++ [.validatedPayload payload] := by
  rw [State.feed_eq, rxbuf_append_of_empty hempty, parse_validFrame _ hmin hmax]
  exact ⟨rfl, rfl⟩

/-- The bytes of the example are a frame of its payload, with the checksum of the payload (R197). -/
theorem sensorFrame_eq :
    [0xEF#8, 0x01#8, 0x00#8, 0x0A#8, 0x10#8, 0x00#8, 0x0F#8, 0xA0#8, 0x01#8, 0x6C#8]
      = rxFrame [0x10#8, 0x00#8, 0x0F#8, 0xA0#8] (crc16 [0x10#8, 0x00#8, 0x0F#8, 0xA0#8]) := by decide

/-- The reading of the example, `4000 * 3.3 / 4095` (R193). -/
theorem sensorReadingOf_4000 : sensorReadingOf .exact 4000#16 = 880 / 273 := by
  norm_num [sensorReadingOf, Config.sensorVref, Config.sensorFullScale]

/-- Settles O45: the ten bytes are one valid frame, and its payload is a sensor report. -/
theorem sensorFrameGivesItsReading : Obligations.SensorFrameGivesItsReading := by
  unfold Obligations.SensorFrameGivesItsReading
  intro s hlink hempty hsize hexact
  rw [sensorFrame_eq]
  obtain ⟨hbuf, hevents⟩ := feed_validFrame (s := s.appendRx _) (payload := [0x10#8, 0x00#8, 0x0F#8, 0xA0#8]) hempty
    (by decide) (by decide) .rxloop
  refine ⟨_, _, exec_rxData_of_enabled ⟨hlink, by decide, hsize⟩, hbuf, hevents, exec_dispatch .., ?_⟩
  have hreport : dispatchPayload s.params.numerics [0x10#8, 0x00#8, 0x0F#8, 0xA0#8] =
      some (.sensorReading 4000#16 (880 / 273)) := by
    rw [hexact, ← sensorReadingOf_4000]
    rfl
  rw [State.respond_resOut, State.feed_params, State.appendRx_params, hreport]

end Sys2Proof.Machine
end

section
/-! PROOFS. The Frame Dispatcher (spec/44_dispatcher.md): which payloads `DISPATCH` reports and which it ignores (R190 to
R194), and `DOM_OUT` as a function of `EVT_OUT` that each step extends (R195). -/

namespace Sys2Proof.Machine

/-! ### What `DISPATCH` makes of a payload -/

/-- A sensor report: the command byte, a byte that is not read, and the raw value, high byte first (R191 to R193). -/
theorem dispatchPayload_sensorReport (numerics : Config.Numerics) (unread rawHi rawLo : Byte) (rest : List Byte) :
    dispatchPayload numerics (0x10#8 :: unread :: rawHi :: rawLo :: rest)
      = some (.sensorReading (be16 rawHi rawLo) (sensorReadingOf numerics (be16 rawHi rawLo))) := rfl

/-- A payload that is too short or has another command byte is ignored (R194). -/
theorem dispatchPayload_eq_none {payload : List Byte} (h : payload.length < 4 ∨ payload.head? ≠ some 0x10#8)
    (numerics : Config.Numerics) : dispatchPayload numerics payload = none := by
  match payload with
  | [] | [_] | [_, _] | [_, _, _] => rfl
  | cmd :: _ :: _ :: _ :: _ =>
    have hcmd : cmd ≠ Config.sensorCmd := fun heq => h.resolve_left (by simp) (congrArg some heq)
    exact if_neg hcmd

/-- The reading `raw * 3.3 / 4095` with both parameters as exact rationals (R193). -/
theorem sensorReadingOf_exact (raw : U16) : sensorReadingOf .exact raw = (raw.toNat : Rat) * 33 / 40950 := by
  simp only [sensorReadingOf, Config.sensorVref, Config.sensorFullScale]
  ring

/-- `DISPATCH` returns what it makes of the payload, and nothing else changes (R190). -/
theorem exec_dispatch_of_payload {payload : List Byte} {s : State} {result : Option DomainEvent}
    (h : dispatchPayload s.params.numerics payload = result) :
    exec (.dispatch payload) s = .next { s with resOut := s.resOut ++ [⟨.host, .domain result⟩] } := by
  rw [exec_dispatch, execDispatch, h, State.respond]

/-- Settles O43: each clause by what the dispatcher makes of the payload it speaks of. -/
theorem dispatchReportsSensorReadingsOnly : Obligations.DispatchReportsSensorReadingsOnly := by
  unfold Obligations.DispatchReportsSensorReadingsOnly
  refine ⟨fun _ => rfl, ?_, ?_, ?_⟩
  · intro unread rawHi rawLo rest s hexact
    apply exec_dispatch_of_payload
    rw [dispatchPayload_sensorReport, hexact, sensorReadingOf_exact, be16_toNat]
  · intro unread rawHi rawLo rest s
    exact ⟨_, exec_dispatch_of_payload (dispatchPayload_sensorReport ..)⟩
  · intro payload s h
    exact exec_dispatch_of_payload (dispatchPayload_eq_none h _)

/-! ### `DOM_OUT` follows `EVT_OUT` -/

/-- No step writes a parameter (R7). -/
theorem step_params {s t : State} (h : step s = .next t) : t.params = s.params := by
  rcases step_cases h with ⟨-, rfl⟩ | ⟨issue, rest, -, ⟨i, -, hexec⟩ | ⟨selector, -, rfl⟩⟩
  · rfl
  · obtain ⟨-, -, -, -, -, -, -, hparams, -⟩ := eachElementHasItsOnlyWriters i _ t hexec
    exact hparams
  · rfl

/-- Where the parameters stay, `DOM_OUT` grows by what the dispatcher makes of what `EVT_OUT` grows by. -/
theorem State.domOut_of_evtOut_append {s t : State} {events : List Event} (hparams : t.params = s.params)
    (hevents : t.evtOut = s.evtOut ++ events) :
    t.domOut = s.domOut ++ events.filterMap (dispatchEvent s.params.numerics) := by
  rw [State.domOut, State.domOut, hparams, hevents, List.filterMap_append]

/-- Settles O44: an event is dispatched by its payload, and a step appends to `EVT_OUT` and keeps the parameters. -/
theorem domOutFollowsEvtOut : Obligations.DomOutFollowsEvtOut := by
  unfold Obligations.DomOutFollowsEvtOut
  constructor
  · intro s
    rw [List.filterMap_filterMap, State.domOut]
    congr 1
    funext e
    cases e <;> rfl
  · intro s t hstep
    obtain ⟨⟨events, hevents⟩, -⟩ := tracesOnlyGrow s t hstep
    exact ⟨events, hevents.symm, State.domOut_of_evtOut_append (step_params hstep) hevents.symm⟩

end Sys2Proof.Machine
end

section
/-! PROOFS. The errors (spec/60_exceptions.md): the codes of R200, the refusal of an undefined selector (R206), and the
rows of R200 as a relation, from which the state each error leaves is read off (R207, R214, R216). -/

namespace Sys2Proof.Machine

/-- Settles O52: the codes are read off `ErrorKind.code`, row by row. -/
theorem errorCodesAreTheTables : Obligations.ErrorCodesAreTheTables :=
  ⟨rfl, rfl, rfl, rfl, fun _ => rfl, rfl, rfl, fun _ => rfl, rfl⟩

/-! ### An undefined selector (R74, R206) -/

/-- A selector that is none of the twelve decodes to no instruction (R74). -/
theorem decodeRequest_of_undefined {selector : Byte}
    (h : selector ∉
      [0x10#8, 0x11#8, 0x12#8, 0x13#8, 0x14#8, 0x15#8, 0x20#8, 0x30#8, 0x40#8, 0x41#8, 0x42#8, 0x50#8])
    (o : Operands) : decodeRequest selector o = .error (.illegalOp selector) := by
  unfold decodeRequest
  split
  case h_13 => rfl
  all_goals
    rename_i hcode
    rw [eq_ofNat_of_toNat hcode] at h
    exact absurd h (by decide)

/-- A step refuses an issue that stands for no instruction, in the state with that issue taken. -/
theorem step_of_reject {s : State} {issue : Issue} {rest : List Issue} {why : Reject}
    (h : s.pending = issue :: rest) (hwhy : decode issue.line = .error why) :
    step s = rejectLine why { s with pending := rest, draw := issue.draw } := by
  simp only [step, State.takeIssue, h, hwhy]

/-- Settles O50: the selector is rejected as an `illegalOp`, which `rejectLine` answers with `IllegalOp`. -/
theorem illegalSelectorIsRefused : Obligations.IllegalSelectorIsRefused := by
  unfold Obligations.IllegalSelectorIsRefused
  intro s selector o d rest hselector hpending
  exact step_of_reject hpending (decodeRequest_of_undefined hselector o)

/-! ### The rows of R200 whose error is a result of an instruction -/

/-- The instructions that can end with `OperandRefused`: those of R207, and the `CMDF` rows, which carry out a `PACK`
(log 9, log 10). -/
def Refusable (i : Instr) : Prop :=
  (∃ b o l, i = .crcSum b o l) ∨ (∃ b o l, i = .crcSumle b o l) ∨ (∃ sh p, i = .pack sh p)
    ∨ i = .cmdf0 ∨ i = .cmdf1 ∨ i = .cmdf2 ∨ i = .cmdf3

/-- From `s` the instruction ends with an error of the kind, in the state given: one rule for each row of R200 that an
instruction raises. -/
inductive Raised (s : State) : Instr → ErrorKind → State → Prop where
  | openFailed (config : LinkConfig) :
      Raised s (.openLink config) .linkOpenError ((s.setLink .closed).raise .host .linkOpenError)
  | notConnected (bytes : List Byte) : s.link = .closed →
      Raised s (.write bytes) .notConnectedError (s.raise .host .notConnectedError)
  | writeFailed (bytes : List Byte) :
      Raised s (.write bytes) .linkWriteError
        ((s.appendTx (bytes.take s.draw.taken)).raise .host .linkWriteError)
  | refused {i} : Refusable i → Raised s i .operandRefused (s.raise .host .operandRefused)

/-- An error that an instruction ended with, if it ended with one, returned to `HOST` and is of a row of R200. -/
def ErrorIsRaised (s : State) (i : Instr) (t : State) : Prop :=
  ∀ who kind, t.resOut = s.resOut ++ [⟨who, .error kind⟩] → who = .host ∧ Raised s i kind t

section Rows

variable {s t : State} {i : Instr}

/-- The error of a row is the one result the instruction returns, and `HOST` is who receives it (R214). -/
theorem Raised.resOut {kind : ErrorKind} (h : Raised s i kind t) :
    t.resOut = s.resOut ++ [⟨.host, .error kind⟩] := by
  cases h <;> rfl

theorem Raised.errorIsRaised {kind : ErrorKind} (h : Raised s i kind t) : ErrorIsRaised s i t := by
  intro who kind' herr
  rw [h.resOut] at herr
  obtain ⟨rfl, rfl⟩ : Agent.host = who ∧ kind = kind' := by simpa using herr
  exact ⟨rfl, h⟩

/-- An instruction that answers with `Ok` or a value ended with no error. -/
theorem errorIsRaised_of_answer {issuer : Agent} {result : Result}
    (ht : t.resOut = s.resOut ++ [⟨issuer, result⟩]) (hresult : ∀ kind, result ≠ .error kind) :
    ErrorIsRaised s i t := by
  intro who kind herr
  rw [ht] at herr
  obtain ⟨-, hkind⟩ : issuer = who ∧ result = .error kind := by simpa using herr
  exact absurd hkind (hresult kind)

/-- An instruction that returns no result ended with no error. -/
theorem errorIsRaised_of_silent (ht : t.resOut = s.resOut) : ErrorIsRaised s i t := by
  intro who kind herr
  simp [ht] at herr

/-! ### Each instruction raises its own rows only -/

theorem crcSum_errorIsRaised {bytes : List Byte} {offset length : Nat}
    (h : exec (.crcSum bytes offset length) s = .next t) : ErrorIsRaised s (.crcSum bytes offset length) t := by
  obtain ⟨hin, -⟩ | ⟨hout, -⟩ := checksum_cases bytes offset length
  · cases (exec_crcSum_of_inside hin s).symm.trans h
    exact errorIsRaised_of_answer rfl nofun
  · cases (exec_crcSum_of_outside hout s).symm.trans h
    exact (Raised.refused (by simp [Refusable])).errorIsRaised

theorem crcSumle_errorIsRaised {bytes : List Byte} {offset length : Nat}
    (h : exec (.crcSumle bytes offset length) s = .next t) :
    ErrorIsRaised s (.crcSumle bytes offset length) t := by
  obtain ⟨hin, -⟩ | ⟨hout, -⟩ := checksum_cases bytes offset length
  · cases (exec_crcSumle_of_inside hin s).symm.trans h
    exact errorIsRaised_of_answer rfl nofun
  · cases (exec_crcSumle_of_outside hout s).symm.trans h
    exact (Raised.refused (by simp [Refusable])).errorIsRaised

theorem pack_errorIsRaised {shape : FrameShape} {payload : List Byte}
    (h : exec (.pack shape payload) s = .next t) : ErrorIsRaised s (.pack shape payload) t := by
  cases hframe : packFrame s.params shape payload with
  | none =>
    cases (exec_pack_of_none hframe).symm.trans h
    exact (Raised.refused (by simp [Refusable])).errorIsRaised
  | some frame =>
    cases (exec_pack_of_some hframe).symm.trans h
    exact errorIsRaised_of_answer rfl nofun

theorem openLink_errorIsRaised {config : LinkConfig} (h : exec (.openLink config) s = .next t) :
    ErrorIsRaised s (.openLink config) t := by
  cases hok : s.draw.ok with
  | true =>
    cases (exec_openLink_of_willing hok config).symm.trans h
    exact errorIsRaised_of_answer rfl nofun
  | false =>
    cases (exec_openLink_of_failing hok config).symm.trans h
    exact (Raised.openFailed config).errorIsRaised

theorem write_errorIsRaised {bytes : List Byte} (h : exec (.write bytes) s = .next t) :
    ErrorIsRaised s (.write bytes) t := by
  cases hlink : s.link with
  | closed =>
    cases (exec_write_of_closed hlink bytes).symm.trans h
    exact (Raised.notConnected bytes hlink).errorIsRaised
  | opened =>
    cases hok : s.draw.ok with
    | true =>
      cases (exec_write_of_willing hlink hok bytes).symm.trans h
      exact errorIsRaised_of_answer rfl nofun
    | false =>
      cases (exec_write_of_failing hlink hok bytes).symm.trans h
      exact (Raised.writeFailed bytes).errorIsRaised

/-- A `CMDF` row raises `OperandRefused` where its `PACK` is refused; its `WRITE` is an operation of its own (R81). -/
theorem cmdOut_errorIsRaised {n : Byte} (hi : Refusable i) (h : s.cmdOut n = .next t) : ErrorIsRaised s i t := by
  obtain ⟨-, hsend⟩ | ⟨frame, -, hsend⟩ := send_cases shapeFixed [0x00#8, 0x00#8, 0x00#8, n] s
  · cases hsend.symm.trans h
    exact (Raised.refused hi).errorIsRaised
  · cases hsend.symm.trans h
    exact errorIsRaised_of_answer rfl nofun

theorem rxData_errorIsRaised {chunk : List Byte} (h : exec (.rxData chunk) s = .next t) :
    ErrorIsRaised s (.rxData chunk) t := by
  cases (exec_rxData_of_enabled (enabled_of_exec h)).symm.trans h
  exact errorIsRaised_of_answer rfl nofun

/-- Every error an instruction ends with is of one of the rows. -/
theorem exec_errorIsRaised (h : exec i s = .next t) : ErrorIsRaised s i t := by
  cases i with
  | crcInit | crcUpd | crcRd | crcRdle | feed | close | dispatch | rxfPrefix | sensPrefix =>
    cases h
    exact errorIsRaised_of_answer rfl nofun
  | crcSum => exact crcSum_errorIsRaised h
  | crcSumle => exact crcSumle_errorIsRaised h
  | pack => exact pack_errorIsRaised h
  | openLink => exact openLink_errorIsRaised h
  | write => exact write_errorIsRaised h
  | rxData => exact rxData_errorIsRaised h
  | rxIdle | rxErr =>
    obtain ⟨-, hstep⟩ := whileOpen_next.mp h
    cases hstep
    exact errorIsRaised_of_silent rfl
  | cmdf0 | cmdf1 | cmdf2 | cmdf3 => exact cmdOut_errorIsRaised (by simp [Refusable]) h

end Rows

/-- Settles O51: the error is of a row of R200 (`exec_errorIsRaised`), and each row names the state it leaves. -/
theorem errorsLeaveTheStateTheSpecNames : Obligations.ErrorsLeaveTheStateTheSpecNames := by
  unfold Obligations.ErrorsLeaveTheStateTheSpecNames
  intro i s t who kind hexec herr
  obtain ⟨rfl, hrow⟩ := exec_errorIsRaised hexec who kind herr
  refine ⟨rfl, ?_⟩
  cases hrow with
  | openFailed config => exact ⟨rfl, .inl ⟨rfl, ⟨config, rfl⟩, rfl, rfl⟩⟩
  | notConnected bytes hlink => exact ⟨rfl, .inr (.inl ⟨rfl, ⟨bytes, rfl⟩, hlink, rfl, rfl⟩)⟩
  | writeFailed bytes => exact ⟨rfl, .inr (.inr (.inl ⟨rfl, rfl, bytes, s.draw.taken, rfl, rfl⟩))⟩
  | refused hi => exact ⟨rfl, .inr (.inr (.inr ⟨rfl, rfl, rfl, hi⟩))⟩

end Sys2Proof.Machine
end

section
/-! PROOFS. What is lost on the way to the receiver without a trace of it (spec/70_reset_and_hazards.md): frames that can be
sent but not received (R246), and a marker that a chunk boundary splits (R240). -/

namespace Sys2Proof.Machine

/-! ### Frames that can be sent but not received (R246) -/

/-- The loop on the frame of an empty payload reports nothing and leaves nothing (R77). -/
theorem parse_frameBytes_nil (logInvalid : Bool) : parse logInvalid (frameBytes shapeFixed []) = ⟨[], [], []⟩ :=
  (parse_emptyPayload logInvalid 0xFF#8 0xFF#8 []).trans (parse_of_markerFree logInvalid rfl)

/-- Whatever the buffer holds, the loop delivers no payload above the limit of R19: a longer one would need a length field
that R138 rejects. -/
theorem validatedPayload_not_mem_parse_events {payload : List Byte} (hlong : 1019 ≤ payload.length) (logInvalid : Bool)
    (buf : Memory) : .validatedPayload payload ∉ (parse logInvalid buf).events := by
  intro hmem
  have hlegal := List.all_eq_true.mp (parse_legal logInvalid buf).events _ hmem
  simp only [Event.legal, Bool.and_eq_true, decide_eq_true_eq] at hlegal
  omega

/-- Settles O21: the frame of an empty payload is dropped silently, and no payload above 1018 bytes is ever delivered. -/
theorem unreceivablePayloadsAreNotDelivered : Obligations.UnreceivablePayloadsAreNotDelivered := by
  unfold Obligations.UnreceivablePayloadsAreNotDelivered
  intro s p frame hpack hempty
  obtain ⟨-, -, rfl⟩ := (packFrame_some_iff ..).mp hpack
  constructor
  · rintro rfl
    rw [exec_feed_of_quiet (rxbuf_append_of_empty hempty _) (parse_frameBytes_nil _), ← hempty]
  · intro hlong
    exact ⟨_, _, exec_feed_of_parse rfl rfl, rfl, validatedPayload_not_mem_parse_events hlong _ _⟩

/-! ### A marker split by a chunk boundary (R240) -/

/-- `FEED` of a chunk without a marker, on an empty buffer, leaves only its empty result (R134). -/
theorem exec_feed_of_markerFree {s : State} {chunk : List Byte} (hempty : s.rxbuf = []) (hfree : markerFree chunk) :
    exec (.feed chunk) s = .next (s.respond .host (.events [])) := by
  rw [exec_feed_of_quiet (rxbuf_append_of_empty hempty chunk) (parse_of_markerFree _ hfree), ← hempty]
  rfl

/-- Settles O33: the first chunk holds no marker and is discarded, so that the second comes to an empty buffer as well. -/
theorem splitMarkerLosesTheFrame : Obligations.SplitMarkerLosesTheFrame := by
  unfold Obligations.SplitMarkerLosesTheFrame
  intro s t hempty hfree
  have hfirst : exec (.feed [0xEF#8]) s = .next (s.respond .host (.events [])) := exec_feed_of_markerFree hempty rfl
  have hsecond := exec_feed_of_markerFree (s := s.respond .host (.events [])) hempty hfree
  rw [execAll_pair, hfirst, andThen, hsecond]
  simp [State.respond]

end Sys2Proof.Machine
end
